-- ==== Sys2Proof/Word.lean ====
section
/-! DEFINITION. The words of QRCORE: the 32-bit command word and result (R12, R61), the byte that a codeword, a coefficient
or a buffer cell is (R6, R40), and zero extension (R7). -/
namespace Sys2Proof

/-- A command word, the result register, a penalty register (R12, R20, R61). -/
abbrev Word := BitVec 32

/-- A codeword, a polynomial coefficient, a buffer cell (R6, R22, R40). -/
abbrev Byte := BitVec 8

/-- `zext` of R7 into the 32 bits of RES: "Values narrower than 32 bits are zero-extended" (R12). -/
def zext {n : Nat} (v : BitVec n) : Word := v.setWidth 32

/-- A non-negative integer as a 32-bit value (counts and derived values that RES receives, R12). -/
def word (n : Nat) : Word := BitVec.ofNat 32 n

end Sys2Proof
end

