-- ==== Sys2Proof/Config.lean ====
section
/-! DEFINITION. The fixed implementation parameters of the block (R6, R40). The constant tables of R28 are in
Machine/Tables.lean. The block has no free value: "every command has, for every state and every operand, exactly one of the
three outcomes" (93_implementation_defined.md, end of Part 1), so nothing here is opaque. -/
namespace Sys2Proof.Config

/-- VMAX, the highest version (R6). -/
abbrev maxVersion : Nat := 10

/-- IBUF holds 274 bytes, index 0 to 273 (R23). -/
abbrev ibufSize : Nat := 274

/-- DBUF holds 274 bytes, index 0 to 273 (R24). -/
abbrev dbufSize : Nat := 274

/-- ECBUF holds 224 bytes, index 0 to 223 (R25). -/
abbrev ecbufSize : Nat := 224

/-- CW holds 346 bytes, index 0 to 345 (R26). -/
abbrev cwSize : Nat := 346

/-- MAT is 57 × 57 cells (R27). -/
abbrev matSize : Nat := 57

/-- A polynomial register holds at most 256 coefficients (R22). -/
abbrev polyMax : Nat := 256

/-- ILEN saturates at 65535 (R18). -/
abbrev ilenMax : Nat := 65535

end Sys2Proof.Config
end

