-- ==== Sys2Proof/Syntax.lean ====
section
/-! DEFINITION. The 35 commands of R63, one constructor per row of spec/opcode_table.json. Indices, counts and numbers are
natural numbers, GEXP's exponent is the signed integer of R62, field elements and buffer data are bytes; that an operand
fits its field is WellFormed.lean's check. -/
namespace Sys2Proof

/-- The polynomial registers that `p`, `pd`, `pa`, `pb` select (R22, R62). -/
inductive PReg where
  | p0 | p1 | p2 | p3
  deriving DecidableEq, Repr

/-- A command with its operands (R63). -/
inductive Instr where
  /-- 0x00 NOP (R205). -/
  | nop
  /-- 0x01 SRST (R206). -/
  | srst
  /-- 0x02 RDCSR n: read register number n (R208). -/
  | rdcsr (n : Nat)
  /-- 0x10 GEXP n: n is signed (R85). -/
  | gexp (n : Int)
  /-- 0x11 GLOG n (R86). -/
  | glog (n : Byte)
  /-- 0x12 RDEXP i (R87). -/
  | rdexp (i : Nat)
  /-- 0x20 PCLR p (R99). -/
  | pclr (p : PReg)
  /-- 0x21 PPUSH p, c (R100). -/
  | ppush (p : PReg) (c : Byte)
  /-- 0x22 PMUL pd, pa, pb (R101). -/
  | pmul (pd pa pb : PReg)
  /-- 0x23 PMOD pd, pa, pb (R102). -/
  | pmod (pd pa pb : PReg)
  /-- 0x24 PGEN p, n (R103). -/
  | pgen (p : PReg) (n : Nat)
  /-- 0x25 PLEN p (R104). -/
  | plen (p : PReg)
  /-- 0x26 PGET p, i (R105). -/
  | pget (p : PReg) (i : Nat)
  /-- 0x30 ICLR (R110). -/
  | iclr
  /-- 0x31 IPUSH b (R111). -/
  | ipush (b : Byte)
  /-- 0x32 SETLVL c (R114). -/
  | setlvl (c : Nat)
  /-- 0x33 SETVER v (R112). -/
  | setver (v : Nat)
  /-- 0x34 WRD i, b (R119). -/
  | wrd (i : Nat) (b : Byte)
  /-- 0x40 SELVER (R115). -/
  | selver
  /-- 0x41 PACK (R117). -/
  | pack
  /-- 0x42 RSENC (R134). -/
  | rsenc
  /-- 0x43 ILV (R136). -/
  | ilv
  /-- 0x44 BUILD m (R159). -/
  | build (m : Nat)
  /-- 0x45 SCORE (R174). -/
  | score
  /-- 0x46 EVAL (R176). -/
  | eval
  /-- 0x47 WRFMT (R194). -/
  | wrfmt
  /-- 0x48 FINAL (R195). -/
  | final
  /-- 0x49 ENCODE (R196). -/
  | encode
  /-- 0x4A FMT d (R188). -/
  | fmt (d : Nat)
  /-- 0x4B VINF d (R190). -/
  | vinf (d : Nat)
  /-- 0x50 RDI i (R209). -/
  | rdi (i : Nat)
  /-- 0x51 RDD i (R210). -/
  | rdd (i : Nat)
  /-- 0x52 RDEC i (R211). -/
  | rdec (i : Nat)
  /-- 0x53 RDCW i (R212). -/
  | rdcw (i : Nat)
  /-- 0x54 RDMOD row, col (R213). -/
  | rdmod (row col : Nat)
  deriving DecidableEq, Repr

end Sys2Proof
end

