-- ==== Sys2Proof/WellFormed.lean ====
section
/-! DEFINITION. When a command can be written as a word: every operand fits the field its format gives it (R61, R62). The
narrower ranges of R62 (SETLVL 0..3, SETVER 1..10, ...) are no part of this: such a word is legal and its command raises
E_RANGE. -/
namespace Sys2Proof

/-- The operand fits an 8-bit field `imm8`. -/
def fitsImm8 (n : Nat) : Bool := n < 256

/-- The operand fits a 9-bit field `idx9`. -/
def fitsIdx9 (n : Nat) : Bool := n < 512

/-- The operand fits a 6-bit field `row` or `col`. -/
def fitsIdx6 (n : Nat) : Bool := n < 64

/-- The operand fits the field `imm16` read as two's complement: -32768 to 32767 (R62). -/
def fitsSigned16 (n : Int) : Bool := -32768 ≤ n && n ≤ 32767

/-- The command can be encoded: each operand is a value its field admits (R61, R62). -/
def Instr.wf : Instr → Bool
  | .nop => true
  | .srst => true
  | .rdcsr n => fitsImm8 n
  | .gexp n => fitsSigned16 n
  | .glog _ => true
  | .rdexp i => fitsImm8 i
  | .pclr _ => true
  | .ppush _ _ => true
  | .pmul _ _ _ => true
  | .pmod _ _ _ => true
  | .pgen _ n => fitsImm8 n
  | .plen _ => true
  | .pget _ i => fitsImm8 i
  | .iclr => true
  | .ipush _ => true
  | .setlvl c => fitsImm8 c
  | .setver v => fitsImm8 v
  | .wrd i _ => fitsIdx9 i
  | .selver => true
  | .pack => true
  | .rsenc => true
  | .ilv => true
  | .build m => fitsImm8 m
  | .score => true
  | .eval => true
  | .wrfmt => true
  | .final => true
  | .encode => true
  | .fmt d => fitsImm8 d
  | .vinf d => fitsImm8 d
  | .rdi i => fitsIdx9 i
  | .rdd i => fitsIdx9 i
  | .rdec i => fitsIdx9 i
  | .rdcw i => fitsIdx9 i
  | .rdmod row col => fitsIdx6 row && fitsIdx6 col

end Sys2Proof
end

