-- ==== Sys2Proof/Decode.lean ====
section
/-! DEFINITION. The decoder and the encoder of the 32-bit command word (R61 to R64), and the opcode table as rows of
match and mask (spec/opcode_table.json). Decoding is total: "it maps any 32-bit word to a command with its operands or to
illegal" (R64). -/
namespace Sys2Proof

/-- `W[hi:lo]` as a non-negative integer (R7). -/
def field (w : Word) (hi lo : Nat) : Nat := w.toNat / 2 ^ lo % 2 ^ (hi + 1 - lo)

/-- Why a word is illegal (R64, R238): both raise E_ILLEGAL. -/
inductive DecodeError where
  /-- "opcode W[31:24] is not in the table of rule R63" -/
  | undefinedOpcode
  /-- "a 1 at a reserved bit of its format" -/
  | reservedBit
  deriving DecidableEq, Repr

/-- `p` selects P0..P3 directly (R62). -/
def PReg.select : Nat → PReg
  | 0 => .p0
  | 1 => .p1
  | 2 => .p2
  | _ => .p3

/-- The number of a polynomial register (R62). -/
def PReg.number : PReg → Nat
  | .p0 => 0
  | .p1 => 1
  | .p2 => 2
  | .p3 => 3

/-- `sext_16` (R7, R62): a 16-bit value read as two's complement. -/
def sext16 (n : Nat) : Int := if n < 32768 then (n : Int) else (n : Int) - 65536

/-- The 16-bit two's complement pattern of an integer. -/
def pattern16 (n : Int) : Nat := (n % 65536).toNat

/-- A command whose reserved bits are checked first: a reserved 1 makes the word illegal (R64). -/
def legalIf (reservedZero : Bool) (i : Instr) : Except DecodeError Instr :=
  if reservedZero then .ok i else .error .reservedBit

/-- Format Z: W[23:0] = 0 (R61). -/
def decodeZ (w : Word) (i : Instr) : Except DecodeError Instr :=
  legalIf (field w 23 0 == 0) i

/-- Format I8: imm8 = W[7:0], W[23:8] = 0 (R61). -/
def decodeI8 (w : Word) (k : Nat → Instr) : Except DecodeError Instr :=
  legalIf (field w 23 8 == 0) (k (field w 7 0))

/-- Format I16: imm16 = W[15:0], W[23:16] = 0 (R61). -/
def decodeI16 (w : Word) (k : Nat → Instr) : Except DecodeError Instr :=
  legalIf (field w 23 16 == 0) (k (field w 15 0))

/-- Format P1: p = W[23:22], W[21:0] = 0 (R61). -/
def decodeP1 (w : Word) (k : PReg → Instr) : Except DecodeError Instr :=
  legalIf (field w 21 0 == 0) (k (PReg.select (field w 23 22)))

/-- Format P1I: p = W[23:22], imm8 = W[7:0], W[21:8] = 0 (R61). -/
def decodeP1I (w : Word) (k : PReg → Nat → Instr) : Except DecodeError Instr :=
  legalIf (field w 21 8 == 0) (k (PReg.select (field w 23 22)) (field w 7 0))

/-- Format P3: pd = W[23:22], pa = W[21:20], pb = W[19:18], W[17:0] = 0 (R61). -/
def decodeP3 (w : Word) (k : PReg → PReg → PReg → Instr) : Except DecodeError Instr :=
  legalIf (field w 17 0 == 0)
    (k (PReg.select (field w 23 22)) (PReg.select (field w 21 20)) (PReg.select (field w 19 18)))

/-- Format X: idx9 = W[8:0], W[23:9] = 0 (R61). -/
def decodeX (w : Word) (k : Nat → Instr) : Except DecodeError Instr :=
  legalIf (field w 23 9 == 0) (k (field w 8 0))

/-- Format XI: idx9 = W[16:8], imm8 = W[7:0], W[23:17] = 0 (R61). -/
def decodeXI (w : Word) (k : Nat → Nat → Instr) : Except DecodeError Instr :=
  legalIf (field w 23 17 == 0) (k (field w 16 8) (field w 7 0))

/-- Format RC: row = W[13:8], col = W[5:0], W[23:14] = 0 and W[7:6] = 0 (R61). -/
def decodeRC (w : Word) (k : Nat → Nat → Instr) : Except DecodeError Instr :=
  legalIf (field w 23 14 == 0 && field w 7 6 == 0) (k (field w 13 8) (field w 5 0))

/-- The decoder: opcode W[31:24], then the format of its row (R61, R63, R64). -/
def decode (w : Word) : Except DecodeError Instr :=
  match field w 31 24 with
  | 0x00 => decodeZ w .nop
  | 0x01 => decodeZ w .srst
  | 0x02 => decodeI8 w .rdcsr
  | 0x10 => decodeI16 w fun n => .gexp (sext16 n)
  | 0x11 => decodeI8 w fun n => .glog (BitVec.ofNat 8 n)
  | 0x12 => decodeI8 w .rdexp
  | 0x20 => decodeP1 w .pclr
  | 0x21 => decodeP1I w fun p n => .ppush p (BitVec.ofNat 8 n)
  | 0x22 => decodeP3 w .pmul
  | 0x23 => decodeP3 w .pmod
  | 0x24 => decodeP1I w .pgen
  | 0x25 => decodeP1 w .plen
  | 0x26 => decodeP1I w .pget
  | 0x30 => decodeZ w .iclr
  | 0x31 => decodeI8 w fun n => .ipush (BitVec.ofNat 8 n)
  | 0x32 => decodeI8 w .setlvl
  | 0x33 => decodeI8 w .setver
  | 0x34 => decodeXI w fun i n => .wrd i (BitVec.ofNat 8 n)
  | 0x40 => decodeZ w .selver
  | 0x41 => decodeZ w .pack
  | 0x42 => decodeZ w .rsenc
  | 0x43 => decodeZ w .ilv
  | 0x44 => decodeI8 w .build
  | 0x45 => decodeZ w .score
  | 0x46 => decodeZ w .eval
  | 0x47 => decodeZ w .wrfmt
  | 0x48 => decodeZ w .final
  | 0x49 => decodeZ w .encode
  | 0x4A => decodeI8 w .fmt
  | 0x4B => decodeI8 w .vinf
  | 0x50 => decodeX w .rdi
  | 0x51 => decodeX w .rdd
  | 0x52 => decodeX w .rdec
  | 0x53 => decodeX w .rdcw
  | 0x54 => decodeRC w .rdmod
  | _ => .error .undefinedOpcode

/-- The opcode of each command (R63). -/
def opcodeOf : Instr → Nat
  | .nop => 0x00
  | .srst => 0x01
  | .rdcsr _ => 0x02
  | .gexp _ => 0x10
  | .glog _ => 0x11
  | .rdexp _ => 0x12
  | .pclr _ => 0x20
  | .ppush _ _ => 0x21
  | .pmul _ _ _ => 0x22
  | .pmod _ _ _ => 0x23
  | .pgen _ _ => 0x24
  | .plen _ => 0x25
  | .pget _ _ => 0x26
  | .iclr => 0x30
  | .ipush _ => 0x31
  | .setlvl _ => 0x32
  | .setver _ => 0x33
  | .wrd _ _ => 0x34
  | .selver => 0x40
  | .pack => 0x41
  | .rsenc => 0x42
  | .ilv => 0x43
  | .build _ => 0x44
  | .score => 0x45
  | .eval => 0x46
  | .wrfmt => 0x47
  | .final => 0x48
  | .encode => 0x49
  | .fmt _ => 0x4A
  | .vinf _ => 0x4B
  | .rdi _ => 0x50
  | .rdd _ => 0x51
  | .rdec _ => 0x52
  | .rdcw _ => 0x53
  | .rdmod _ _ => 0x54

/-- The operand fields of each command as the integer W[23:0], reserved bits 0 (R61). -/
def operandBits : Instr → Nat
  | .nop => 0
  | .srst => 0
  | .rdcsr n => n
  | .gexp n => pattern16 n
  | .glog n => n.toNat
  | .rdexp i => i
  | .pclr p => p.number * 2 ^ 22
  | .ppush p c => p.number * 2 ^ 22 + c.toNat
  | .pmul pd pa pb => pd.number * 2 ^ 22 + pa.number * 2 ^ 20 + pb.number * 2 ^ 18
  | .pmod pd pa pb => pd.number * 2 ^ 22 + pa.number * 2 ^ 20 + pb.number * 2 ^ 18
  | .pgen p n => p.number * 2 ^ 22 + n
  | .plen p => p.number * 2 ^ 22
  | .pget p i => p.number * 2 ^ 22 + i
  | .iclr => 0
  | .ipush b => b.toNat
  | .setlvl c => c
  | .setver v => v
  | .wrd i b => i * 2 ^ 8 + b.toNat
  | .selver => 0
  | .pack => 0
  | .rsenc => 0
  | .ilv => 0
  | .build m => m
  | .score => 0
  | .eval => 0
  | .wrfmt => 0
  | .final => 0
  | .encode => 0
  | .fmt d => d
  | .vinf d => d
  | .rdi i => i
  | .rdd i => i
  | .rdec i => i
  | .rdcw i => i
  | .rdmod row col => row * 2 ^ 8 + col

/-- The command word of a well-formed command (R61, R63). -/
def encode (i : Instr) : Word := BitVec.ofNat 32 (opcodeOf i * 2 ^ 24 + operandBits i)

/-- The command that the decoder reads from a table word: QRCORE has one length, 32 bits, and a word is presented whole
(R43, R61), so bit 0 of the table is bit 0 of the word. -/
def decodeTableWord (nbits w : Nat) : Option Instr :=
  match decode (BitVec.ofNat 32 (w % 2 ^ nbits)) with
  | .ok i => some i
  | .error _ => none

/-- A row of spec/opcode_table.json: the mnemonic, and the fixed bits as match and mask (R61). -/
structure OpcodeRow where
  mnemonic : String
  fixed : Word
  mask : Word
  deriving DecidableEq, Repr

/-- "A word W is an instance of a row of opcode_table.json exactly when W and mask = match" (R61). -/
def OpcodeRow.covers (r : OpcodeRow) (w : Word) : Bool := w &&& r.mask == r.fixed

/-- The rows 0x00 to 0x26. -/
def opcodeRowsLow : List OpcodeRow :=
  [ ⟨"NOP", 0x00000000, 0xFFFFFFFF⟩, ⟨"SRST", 0x01000000, 0xFFFFFFFF⟩, ⟨"RDCSR", 0x02000000, 0xFFFFFF00⟩,
    ⟨"GEXP", 0x10000000, 0xFFFF0000⟩, ⟨"GLOG", 0x11000000, 0xFFFFFF00⟩, ⟨"RDEXP", 0x12000000, 0xFFFFFF00⟩,
    ⟨"PCLR", 0x20000000, 0xFF3FFFFF⟩, ⟨"PPUSH", 0x21000000, 0xFF3FFF00⟩, ⟨"PMUL", 0x22000000, 0xFF03FFFF⟩,
    ⟨"PMOD", 0x23000000, 0xFF03FFFF⟩, ⟨"PGEN", 0x24000000, 0xFF3FFF00⟩, ⟨"PLEN", 0x25000000, 0xFF3FFFFF⟩,
    ⟨"PGET", 0x26000000, 0xFF3FFF00⟩ ]

/-- The rows 0x30 to 0x54. -/
def opcodeRowsHigh : List OpcodeRow :=
  [ ⟨"ICLR", 0x30000000, 0xFFFFFFFF⟩, ⟨"IPUSH", 0x31000000, 0xFFFFFF00⟩, ⟨"SETLVL", 0x32000000, 0xFFFFFF00⟩,
    ⟨"SETVER", 0x33000000, 0xFFFFFF00⟩, ⟨"WRD", 0x34000000, 0xFFFE0000⟩, ⟨"SELVER", 0x40000000, 0xFFFFFFFF⟩,
    ⟨"PACK", 0x41000000, 0xFFFFFFFF⟩, ⟨"RSENC", 0x42000000, 0xFFFFFFFF⟩, ⟨"ILV", 0x43000000, 0xFFFFFFFF⟩,
    ⟨"BUILD", 0x44000000, 0xFFFFFF00⟩, ⟨"SCORE", 0x45000000, 0xFFFFFFFF⟩, ⟨"EVAL", 0x46000000, 0xFFFFFFFF⟩,
    ⟨"WRFMT", 0x47000000, 0xFFFFFFFF⟩, ⟨"FINAL", 0x48000000, 0xFFFFFFFF⟩, ⟨"ENCODE", 0x49000000, 0xFFFFFFFF⟩,
    ⟨"FMT", 0x4A000000, 0xFFFFFF00⟩, ⟨"VINF", 0x4B000000, 0xFFFFFF00⟩, ⟨"RDI", 0x50000000, 0xFFFFFE00⟩,
    ⟨"RDD", 0x51000000, 0xFFFFFE00⟩, ⟨"RDEC", 0x52000000, 0xFFFFFE00⟩, ⟨"RDCW", 0x53000000, 0xFFFFFE00⟩,
    ⟨"RDMOD", 0x54000000, 0xFFFFC0C0⟩ ]

/-- The 35 rows of spec/opcode_table.json. -/
def opcodeRows : List OpcodeRow := opcodeRowsLow ++ opcodeRowsHigh

end Sys2Proof
end

