-- ==== Sys2Proof/Machine/State.lean ====
section
/-! DEFINITION. The state of QRCORE (10_state.md), its reset value (R30), and the reasons a step could stop. The constant
tables are not state (R28) and there is no hidden state (R29). -/
namespace Sys2Proof.Machine

/-- A cell of the Module Matrix (R27). -/
inductive Module where
  | unset | light | dark
  deriving DecidableEq, Repr

/-- A byte buffer (IBUF, DBUF, ECBUF, CW) as index and byte pairs in canonical form (Ops.lean, `Memory.wf`): indices
strictly rising, and no entry equal to 0, which is what an unlisted index reads as (the reset contents of R30). -/
abbrev Memory := List Host.Cell

/-- MAT: 57 × 57 cells, index (row, col) (R27). The shape is in the type, so equal matrices are equal data. -/
abbrev Matrix := Vector (Vector Module 57) 57

/-- The fault causes of R236. -/
inductive FaultCode where
  /-- 1, `glog(0)` was formed (R237). -/
  | domain
  /-- 2, undefined opcode or reserved bit set (R238). -/
  | illegal
  /-- 3, an operand outside the range its rule states (R239). -/
  | range
  /-- 4, a polynomial register would hold more than 256 coefficients (R242). -/
  | plen
  deriving DecidableEq, Repr

/-- What the host drives at the block's input ports when the block is ready for a command (R60). The clock is not
modelled: "no rule counts its cycles". -/
structure PortIn where
  /-- `rst`, reset (R260). -/
  rst : Bool
  /-- `cmd_valid`, the host presents a command word. -/
  cmdValid : Bool
  /-- `cmd_word`, the command word W. -/
  cmdWord : Word
  deriving DecidableEq, Repr

/-- Why the machine stops. Nothing stops it: a fault of QRCORE is a next state with ERR and ECMD written, and the FAULT
state is a state (R240, R241), so this type has no constructor (safe: no step is cut off). -/
inductive Fault where
  deriving DecidableEq, Repr

/-- Why an instruction is refused. -/
inductive Refusal where
  /-- Raised by an arm of Dispatch.lean for a command that has no meaning yet (safe); no arm raises it. -/
  | notModelled (mnemonic : String)
  deriving DecidableEq, Repr

/-- The whole state: every register of 10_state.md sections 2 and 3, the polynomial registers, the buffers, the matrix;
and what the host will drive at the ports, which is the model's own field. STATUS, NMOD and DTOT are views (R13, R16,
R19). -/
structure State where
  /-- RES, the result register (R12). -/
  res : BitVec 32
  /-- ERR, the cause code of the fault, or 0 (R14, R236). -/
  err : BitVec 4
  /-- ECMD, the command word that faulted, or 0 (R14). -/
  ecmd : BitVec 32
  /-- STATUS.OVF (R13). -/
  ovf : Bool
  /-- STATUS.FINAL (R13). -/
  final : Bool
  /-- LEVEL: 0 = M, 1 = L, 2 = H, 3 = Q (R15). -/
  level : BitVec 2
  /-- VERSION, 1 to 10 (R16). -/
  version : BitVec 4
  /-- MASK, the mask index of the last BUILD (R17). -/
  mask : BitVec 3
  /-- BEST, the mask index the last EVAL selected (R17). -/
  best : BitVec 3
  /-- ILEN, the count of payload bytes pushed, saturating at 65535 (R18). -/
  ilen : BitVec 16
  /-- CWLEN, the number of codewords the last ILV wrote (R19). -/
  cwlen : BitVec 9
  /-- PENA, rule A of the last SCORE (R20). -/
  pena : BitVec 32
  /-- PENB, rule B of the last SCORE (R20). -/
  penb : BitVec 32
  /-- PENC, rule C of the last SCORE (R20). -/
  penc : BitVec 32
  /-- PEN0 to PEN7, the totals of the eight trials of the last EVAL (R20). -/
  pen : Vector (BitVec 32) 8
  /-- P0 (R22): coefficients, highest power first, stripped, at most 256. -/
  p0 : List (BitVec 8)
  /-- P1 (R22). -/
  p1 : List (BitVec 8)
  /-- P2 (R22). -/
  p2 : List (BitVec 8)
  /-- P3 (R22). -/
  p3 : List (BitVec 8)
  /-- IBUF, 274 bytes (R23). -/
  ibuf : Memory
  /-- DBUF, 274 bytes (R24). -/
  dbuf : Memory
  /-- ECBUF, 224 bytes (R25). -/
  ecbuf : Memory
  /-- CW, 346 bytes (R26). -/
  cw : Memory
  /-- MAT, 57 × 57 cells (R27). -/
  mat : Matrix
  /-- The model's own: what the host will drive at the ports, in order, one entry a step (R11, R50, R220). -/
  host : List PortIn
  deriving DecidableEq, Repr

/-- The state after reset (R30): everything 0 but VERSION = 1, polynomials empty, buffer bytes 0, cells unset; nothing
waits at the ports. -/
def State.reset : State :=
  { res := 0, err := 0, ecmd := 0, ovf := false, final := false, level := 0, version := 1, mask := 0, best := 0,
    ilen := 0, cwlen := 0, pena := 0, penb := 0, penc := 0, pen := Vector.replicate 8 0,
    p0 := [], p1 := [], p2 := [], p3 := [], ibuf := [], dbuf := [], ecbuf := [], cw := [],
    mat := Vector.replicate 57 (Vector.replicate 57 .unset), host := [] }

end Sys2Proof.Machine
end

