-- ==== Sys2Proof/Machine/Ops.lean ====
section
/-! DEFINITION. The named operations over the buffers, the matrix and the whole state: one-cell reads and writes (R7, R43),
fault entry (R240), the way out of the FAULT state (R206, R244), and the shape of every command: the FAULT gating of R241,
then the command's own effect, whole or not at all (R240). -/
namespace Sys2Proof.Machine

/-- `MemRead(S, i)` of a byte buffer (R7). -/
def Memory.read : Memory → Nat → Byte
  | [], _ => 0
  | c :: m, i => if c.1 = i then c.2 else Memory.read m i

/-- The entries of `bs` from index `start` up, without those equal to what an unlisted index reads as. -/
def Memory.entries : Nat → List Byte → Memory
  | _, [] => []
  | start, b :: bs => if b = 0 then Memory.entries (start + 1) bs else (start, b) :: Memory.entries (start + 1) bs

/-- `MemWrite(S, start + k, bs[k])` for every k; other entries "keep what they held" (R24 to R26). -/
def Memory.writeBlock (m : Memory) (start : Nat) (bs : List Byte) : Memory :=
  m.filter (fun c => c.1 < start) ++ Memory.entries start bs ++ m.filter (fun c => start + bs.length ≤ c.1)

/-- `MemWrite(S, i, b)` (R7): one cell (R43). -/
def Memory.write (m : Memory) (i : Nat) (b : Byte) : Memory := m.writeBlock i [b]

/-- The canonical form: indices strictly rising, no entry equal to 0. -/
abbrev Memory.wf (m : Memory) : Prop := m.Pairwise (fun a b => a.1 < b.1) ∧ ∀ c ∈ m, c.2 ≠ 0

/-- The bytes at indices `start` to `start + n - 1`. -/
def Memory.slice (m : Memory) (start n : Nat) : List Byte := (List.range n).map fun k => m.read (start + k)

/-- `MemRead(MAT, (r, c))` (R7). Every index the block forms is inside 57 × 57 (R41); elsewhere there is no cell. -/
def Matrix.read (m : Matrix) (r c : Nat) : Module :=
  if h : r < 57 ∧ c < 57 then (m[r]'h.1)[c]'h.2 else .unset

/-- The matrix whose cell (r, c) is `f r c`. -/
def Matrix.tabulate (f : Nat → Nat → Module) : Matrix :=
  ⟨((List.range 57).map fun r => ⟨((List.range 57).map (f r)).toArray, by simp⟩).toArray, by simp⟩

/-- `MemWrite(MAT, cell, colour)` for a list of writes to distinct cells; every other cell is unchanged. -/
def Matrix.overwrite (m : Matrix) (ws : List ((Nat × Nat) × Module)) : Matrix :=
  Matrix.tabulate fun r c =>
    match ws.find? (fun w => w.1 == (r, c)) with
    | some w => w.2
    | none => m.read r c

/-- The values ERR takes (R236). -/
def FaultCode.code : FaultCode → BitVec 4
  | .domain => 1
  | .illegal => 2
  | .range => 3
  | .plen => 4

/-- STATUS.FAULT: 1 exactly when ERR is not 0 (R13). -/
def State.faulted (s : State) : Bool := s.err != 0

/-- Fault entry, `raise Fault(code)` for the command word W (R240): ERR and ECMD, and nothing else. -/
def State.raise (c : FaultCode) (w : Word) (s : State) : State := { s with err := c.code, ecmd := w }

/-- The reset transition, which SRST and the `rst` input make (R206, R260): the only way out of the FAULT state (R244).
What the host is going to drive is not the block's state and stays. -/
def State.toReset (s : State) : State := { State.reset with host := s.host }

/-- What a step answers. -/
abbrev Result := Host.Outcome State Fault Refusal

/-- A command other than SRST, with command word W and the effect of its pseudocode on a state: in the FAULT state it is
discarded (R241); else its effect is complete, or it raises its fault with no other change (R240, R65). -/
def command (w : Word) (s : State) (effect : State → Except FaultCode State) : Result :=
  if s.faulted then .next s
  else
    match effect s with
    | .ok t => .next t
    | .error c => .next (s.raise c w)

/-- `RES <- v` (R12). -/
def State.setRes (s : State) (v : Word) : State := { s with res := v }

end Sys2Proof.Machine
end

