-- ==== Sys2Proof/Machine/Tables.lean ====
section
/-! DEFINITION. The constant tables (R28), "fixed at build time of the block, the same in every instance and at every time":
EXP and LOG (R80, R81), the RS block layout (R130) with what is derived from it (R113, R131), the alignment coordinates
(R150) and the BCH constants (R185). -/
namespace Sys2Proof.Machine

/-- EXP[0..127] as R80 prints it, sixteen entries a row. -/
def expRowsLow : List (List Nat) :=
  [ [0x01, 0x02, 0x04, 0x08, 0x10, 0x20, 0x40, 0x80, 0x1D, 0x3A, 0x74, 0xE8, 0xCD, 0x87, 0x13, 0x26],
    [0x4C, 0x98, 0x2D, 0x5A, 0xB4, 0x75, 0xEA, 0xC9, 0x8F, 0x03, 0x06, 0x0C, 0x18, 0x30, 0x60, 0xC0],
    [0x9D, 0x27, 0x4E, 0x9C, 0x25, 0x4A, 0x94, 0x35, 0x6A, 0xD4, 0xB5, 0x77, 0xEE, 0xC1, 0x9F, 0x23],
    [0x46, 0x8C, 0x05, 0x0A, 0x14, 0x28, 0x50, 0xA0, 0x5D, 0xBA, 0x69, 0xD2, 0xB9, 0x6F, 0xDE, 0xA1],
    [0x5F, 0xBE, 0x61, 0xC2, 0x99, 0x2F, 0x5E, 0xBC, 0x65, 0xCA, 0x89, 0x0F, 0x1E, 0x3C, 0x78, 0xF0],
    [0xFD, 0xE7, 0xD3, 0xBB, 0x6B, 0xD6, 0xB1, 0x7F, 0xFE, 0xE1, 0xDF, 0xA3, 0x5B, 0xB6, 0x71, 0xE2],
    [0xD9, 0xAF, 0x43, 0x86, 0x11, 0x22, 0x44, 0x88, 0x0D, 0x1A, 0x34, 0x68, 0xD0, 0xBD, 0x67, 0xCE],
    [0x81, 0x1F, 0x3E, 0x7C, 0xF8, 0xED, 0xC7, 0x93, 0x3B, 0x76, 0xEC, 0xC5, 0x97, 0x33, 0x66, 0xCC] ]

/-- EXP[128..255] as R80 prints it. -/
def expRowsHigh : List (List Nat) :=
  [ [0x85, 0x17, 0x2E, 0x5C, 0xB8, 0x6D, 0xDA, 0xA9, 0x4F, 0x9E, 0x21, 0x42, 0x84, 0x15, 0x2A, 0x54],
    [0xA8, 0x4D, 0x9A, 0x29, 0x52, 0xA4, 0x55, 0xAA, 0x49, 0x92, 0x39, 0x72, 0xE4, 0xD5, 0xB7, 0x73],
    [0xE6, 0xD1, 0xBF, 0x63, 0xC6, 0x91, 0x3F, 0x7E, 0xFC, 0xE5, 0xD7, 0xB3, 0x7B, 0xF6, 0xF1, 0xFF],
    [0xE3, 0xDB, 0xAB, 0x4B, 0x96, 0x31, 0x62, 0xC4, 0x95, 0x37, 0x6E, 0xDC, 0xA5, 0x57, 0xAE, 0x41],
    [0x82, 0x19, 0x32, 0x64, 0xC8, 0x8D, 0x07, 0x0E, 0x1C, 0x38, 0x70, 0xE0, 0xDD, 0xA7, 0x53, 0xA6],
    [0x51, 0xA2, 0x59, 0xB2, 0x79, 0xF2, 0xF9, 0xEF, 0xC3, 0x9B, 0x2B, 0x56, 0xAC, 0x45, 0x8A, 0x09],
    [0x12, 0x24, 0x48, 0x90, 0x3D, 0x7A, 0xF4, 0xF5, 0xF7, 0xF3, 0xFB, 0xEB, 0xCB, 0x8B, 0x0B, 0x16],
    [0x2C, 0x58, 0xB0, 0x7D, 0xFA, 0xE9, 0xCF, 0x83, 0x1B, 0x36, 0x6C, 0xD8, 0xAD, 0x47, 0x8E, 0x01] ]

/-- EXP in rows of sixteen (R80). -/
def expRows : List (List Nat) := expRowsLow ++ expRowsHigh

/-- LOG[0..127] as R81 prints it; LOG[0] does not exist, and the 0 in its place is never read (R84). -/
def logRowsLow : List (List Nat) :=
  [ [0x00, 0x00, 0x01, 0x19, 0x02, 0x32, 0x1A, 0xC6, 0x03, 0xDF, 0x33, 0xEE, 0x1B, 0x68, 0xC7, 0x4B],
    [0x04, 0x64, 0xE0, 0x0E, 0x34, 0x8D, 0xEF, 0x81, 0x1C, 0xC1, 0x69, 0xF8, 0xC8, 0x08, 0x4C, 0x71],
    [0x05, 0x8A, 0x65, 0x2F, 0xE1, 0x24, 0x0F, 0x21, 0x35, 0x93, 0x8E, 0xDA, 0xF0, 0x12, 0x82, 0x45],
    [0x1D, 0xB5, 0xC2, 0x7D, 0x6A, 0x27, 0xF9, 0xB9, 0xC9, 0x9A, 0x09, 0x78, 0x4D, 0xE4, 0x72, 0xA6],
    [0x06, 0xBF, 0x8B, 0x62, 0x66, 0xDD, 0x30, 0xFD, 0xE2, 0x98, 0x25, 0xB3, 0x10, 0x91, 0x22, 0x88],
    [0x36, 0xD0, 0x94, 0xCE, 0x8F, 0x96, 0xDB, 0xBD, 0xF1, 0xD2, 0x13, 0x5C, 0x83, 0x38, 0x46, 0x40],
    [0x1E, 0x42, 0xB6, 0xA3, 0xC3, 0x48, 0x7E, 0x6E, 0x6B, 0x3A, 0x28, 0x54, 0xFA, 0x85, 0xBA, 0x3D],
    [0xCA, 0x5E, 0x9B, 0x9F, 0x0A, 0x15, 0x79, 0x2B, 0x4E, 0xD4, 0xE5, 0xAC, 0x73, 0xF3, 0xA7, 0x57] ]

/-- LOG[128..255] as R81 prints it. -/
def logRowsHigh : List (List Nat) :=
  [ [0x07, 0x70, 0xC0, 0xF7, 0x8C, 0x80, 0x63, 0x0D, 0x67, 0x4A, 0xDE, 0xED, 0x31, 0xC5, 0xFE, 0x18],
    [0xE3, 0xA5, 0x99, 0x77, 0x26, 0xB8, 0xB4, 0x7C, 0x11, 0x44, 0x92, 0xD9, 0x23, 0x20, 0x89, 0x2E],
    [0x37, 0x3F, 0xD1, 0x5B, 0x95, 0xBC, 0xCF, 0xCD, 0x90, 0x87, 0x97, 0xB2, 0xDC, 0xFC, 0xBE, 0x61],
    [0xF2, 0x56, 0xD3, 0xAB, 0x14, 0x2A, 0x5D, 0x9E, 0x84, 0x3C, 0x39, 0x53, 0x47, 0x6D, 0x41, 0xA2],
    [0x1F, 0x2D, 0x43, 0xD8, 0xB7, 0x7B, 0xA4, 0x76, 0xC4, 0x17, 0x49, 0xEC, 0x7F, 0x0C, 0x6F, 0xF6],
    [0x6C, 0xA1, 0x3B, 0x52, 0x29, 0x9D, 0x55, 0xAA, 0xFB, 0x60, 0x86, 0xB1, 0xBB, 0xCC, 0x3E, 0x5A],
    [0xCB, 0x59, 0x5F, 0xB0, 0x9C, 0xA9, 0xA0, 0x51, 0x0B, 0xF5, 0x16, 0xEB, 0x7A, 0x75, 0x2C, 0xD7],
    [0x4F, 0xAE, 0xD5, 0xE9, 0xE6, 0xE7, 0xAD, 0xE8, 0x74, 0xD6, 0xF4, 0xEA, 0xA8, 0x50, 0x58, 0xAF] ]

/-- LOG in rows of sixteen (R81). -/
def logRows : List (List Nat) := logRowsLow ++ logRowsHigh

/-- The entry at index `i` of a table of rows of sixteen. -/
def rowEntry (rows : List (List Nat)) (i : Nat) : Nat := (rows.getD (i / 16) []).getD (i % 16) 0

/-- `MemRead(EXP, i)`, i = 0..255 (R80). -/
def expEntry (i : Nat) : Byte := BitVec.ofNat 8 (rowEntry expRows i)

/-- `MemRead(LOG, i)`, i = 1..255 (R81). -/
def logEntry (i : Nat) : Nat := rowEntry logRows i

/-- An RS Block, the pair of R130. -/
structure RSBlock where
  total : Nat
  data : Nat
  deriving DecidableEq, Repr

/-- `ecCount = total - data` (R131). -/
def RSBlock.ec (b : RSBlock) : Nat := b.total - b.data

/-- A group `count × (total, data)` of the layout table (R130). -/
def rsGroup (count total data : Nat) : List RSBlock := List.replicate count ⟨total, data⟩

/-- The layout table, column L (R130). -/
def blocksL : Nat → List RSBlock
  | 1 => rsGroup 1 26 19
  | 2 => rsGroup 1 44 34
  | 3 => rsGroup 1 70 55
  | 4 => rsGroup 1 100 80
  | 5 => rsGroup 1 134 108
  | 6 => rsGroup 2 86 68
  | 7 => rsGroup 2 98 78
  | 8 => rsGroup 2 121 97
  | 9 => rsGroup 2 146 116
  | 10 => rsGroup 2 86 68 ++ rsGroup 2 87 69
  | _ => []

/-- The layout table, column M (R130). -/
def blocksM : Nat → List RSBlock
  | 1 => rsGroup 1 26 16
  | 2 => rsGroup 1 44 28
  | 3 => rsGroup 1 70 44
  | 4 => rsGroup 2 50 32
  | 5 => rsGroup 2 67 43
  | 6 => rsGroup 4 43 27
  | 7 => rsGroup 4 49 31
  | 8 => rsGroup 2 60 38 ++ rsGroup 2 61 39
  | 9 => rsGroup 3 58 36 ++ rsGroup 2 59 37
  | 10 => rsGroup 4 69 43 ++ rsGroup 1 70 44
  | _ => []

/-- The layout table, column Q (R130). -/
def blocksQ : Nat → List RSBlock
  | 1 => rsGroup 1 26 13
  | 2 => rsGroup 1 44 22
  | 3 => rsGroup 2 35 17
  | 4 => rsGroup 2 50 24
  | 5 => rsGroup 2 33 15 ++ rsGroup 2 34 16
  | 6 => rsGroup 4 43 19
  | 7 => rsGroup 2 32 14 ++ rsGroup 4 33 15
  | 8 => rsGroup 4 40 18 ++ rsGroup 2 41 19
  | 9 => rsGroup 4 36 16 ++ rsGroup 4 37 17
  | 10 => rsGroup 6 43 19 ++ rsGroup 2 44 20
  | _ => []

/-- The layout table, column H (R130). -/
def blocksH : Nat → List RSBlock
  | 1 => rsGroup 1 26 9
  | 2 => rsGroup 1 44 16
  | 3 => rsGroup 2 35 13
  | 4 => rsGroup 4 25 9
  | 5 => rsGroup 2 33 11 ++ rsGroup 2 34 12
  | 6 => rsGroup 4 43 15
  | 7 => rsGroup 4 39 13 ++ rsGroup 1 40 14
  | 8 => rsGroup 4 40 14 ++ rsGroup 2 41 15
  | 9 => rsGroup 4 36 12 ++ rsGroup 4 37 13
  | 10 => rsGroup 6 43 15 ++ rsGroup 2 44 16
  | _ => []

/-- `blocks(v, level)` in block order (R131); the level codes are those of R15. For a version outside 1 to 10, which
VERSION never holds (R16), the table has no row and the list is empty. -/
def blocks (v : Nat) (level : BitVec 2) : List RSBlock :=
  match level.toNat with
  | 0 => blocksM v
  | 1 => blocksL v
  | 2 => blocksH v
  | _ => blocksQ v

/-- `DTOT(v, level)`, the sum of data[b] (R131). -/
def dtotOf (v : Nat) (level : BitVec 2) : Nat := ((blocks v level).map RSBlock.data).sum

/-- `lenbits(v)`: 8 for v ≤ 9, 16 otherwise (R113). -/
def lenbits (v : Nat) : Nat := if v ≤ 9 then 8 else 16

/-- `cap(v, level)`, the byte-mode capacity (R113). -/
def capacity (v : Nat) (level : BitVec 2) : Nat := (8 * dtotOf v level - 4 - lenbits v) / 8

/-- The alignment coordinates by version (R150). -/
def alignCoords : Nat → List Nat
  | 2 => [6, 18]
  | 3 => [6, 22]
  | 4 => [6, 26]
  | 5 => [6, 30]
  | 6 => [6, 34]
  | 7 => [6, 22, 38]
  | 8 => [6, 24, 42]
  | 9 => [6, 26, 46]
  | 10 => [6, 28, 50]
  | _ => []

/-- The centres used: all pairs but (6, 6), (6, last) and (last, 6), in the order of the table row (R150). -/
def alignCentres (v : Nat) : List (Nat × Nat) :=
  let cs := alignCoords v
  let last := cs.getLastD 0
  (cs.flatMap fun a => cs.map fun b => (a, b)).filter fun p =>
    !(p == (6, 6) || p == (6, last) || p == (last, 6))

/-- G15, the generator of the BCH(15,5) code (R185). -/
def g15 : Nat := 0x537

/-- FMASK, the fixed 15-bit mask constant (R185). -/
def fmask : Nat := 0x5412

/-- G18, the generator of the BCH(18,6) code (R185). -/
def g18 : Nat := 0x1F25

end Sys2Proof.Machine
end

