-- ==== Sys2Proof/Machine/Operands.lean ====
section
/-! DEFINITION. The operand forms: the polynomial registers that `p`, `pd`, `pa`, `pb` select (R22, R62), the range check of
an index or a number (R41, R62), and the register that RDCSR's number names (R21). -/
namespace Sys2Proof.Machine

/-- `P[p]` (R7, R22). -/
def State.poly (s : State) : PReg → List Byte
  | .p0 => s.p0
  | .p1 => s.p1
  | .p2 => s.p2
  | .p3 => s.p3

/-- `P[p] <- v` (R7, R22). -/
def State.setPoly (s : State) (p : PReg) (v : List Byte) : State :=
  match p with
  | .p0 => { s with p0 := v }
  | .p1 => { s with p1 := v }
  | .p2 => { s with p2 := v }
  | .p3 => { s with p3 := v }

/-- `if not inRange: raise Fault(E_RANGE)`, then the effect (R41, R62, R239). -/
def inRange (ok : Bool) (t : State) : Except FaultCode State := if ok then .ok t else .error .range

/-- NMOD, the derived value 4·VERSION + 17 (R16). -/
def State.nmod (s : State) : Nat := 4 * s.version.toNat + 17

/-- DTOT, the derived data-codeword count of (VERSION, LEVEL) (R19). -/
def State.dtot (s : State) : Nat := dtotOf s.version.toNat s.level

end Sys2Proof.Machine
end

