-- ==== Sys2Proof/Machine/Flags.lean ====
section
/-! DEFINITION. The status flags (R13): the STATUS word, and the conditions under which SELVER and PACK set OVF. FAULT is
derived from ERR (Ops.lean, `State.faulted`); FINAL is set by WRFMT and cleared by BUILD in their own meanings. -/
namespace Sys2Proof.Machine

/-- One bit as a number. -/
def bit (b : Bool) : Nat := if b then 1 else 0

/-- STATUS read as {FINAL, OVF, FAULT} in bits 2:0, bits 31:3 zero (R13, R208). -/
def State.status (s : State) : Word := word (4 * bit s.final + 2 * bit s.ovf + bit s.faulted)

/-- OVF of SELVER: no version up to 10 has the capacity for ILEN bytes (R115). -/
def selverOverflows (level : BitVec 2) (ilen : Nat) : Bool :=
  (List.range' 1 Config.maxVersion).all fun v => capacity v level < ilen

/-- OVF of PACK: mode indicator, length indicator and payload are longer than the data codewords (R117, R118). -/
def packOverflows (nbits capbits : Nat) : Bool := capbits < nbits

end Sys2Proof.Machine
end

