-- ==== Sys2Proof/Machine/Field.lean ====
section
/-! DEFINITION. The Galois Field Engine (40_gf.md): gexp, glog, the term unit of 41_poly.md, and GEXP, GLOG, RDEXP. -/
namespace Sys2Proof.Machine

/-- `gexp(n) = EXP[n mod 255]` for any integer n, the result of mod in 0..254 (R83). -/
def gexp (n : Int) : Byte := expEntry (n % 255).toNat

/-- `glog(n)`: E_DOMAIN for 0, else LOG[n] (R84). -/
def glog (n : Byte) : Except FaultCode Nat :=
  if n = 0 then .error .domain else .ok (logEntry n.toNat)

/-- `gterm(u, v) = gexp(glog(u) + glog(v))`, with no guard for zero (R93). -/
def gterm (u v : Byte) : Except FaultCode Byte :=
  match glog u with
  | .error c => .error c
  | .ok a =>
    match glog v with
    | .error c => .error c
    | .ok b => .ok (gexp ((a : Int) + (b : Int)))

/-- `gscale(u, r) = gexp(glog(u) + r)`, with no guard for zero (R93). -/
def gscale (u : Byte) (r : Int) : Except FaultCode Byte :=
  match glog u with
  | .error c => .error c
  | .ok a => .ok (gexp ((a : Int) + r))

/-- GEXP n: `RES <- zext(gexp(n))` (R85). -/
def execGexp (n : Int) (s : State) : Result :=
  command (encode (.gexp n)) s fun s => .ok (s.setRes (zext (gexp n)))

/-- GLOG n: `RES <- zext(glog(n))` (R86). -/
def execGlog (n : Byte) (s : State) : Result :=
  command (encode (.glog n)) s fun s =>
    match glog n with
    | .error c => .error c
    | .ok k => .ok (s.setRes (word k))

/-- RDEXP i: `RES <- zext(MemRead(EXP, i))`, the raw table entry with no wrap (R87). -/
def execRdexp (i : Nat) (s : State) : Result :=
  command (encode (.rdexp i)) s fun s => .ok (s.setRes (zext (expEntry i)))

end Sys2Proof.Machine
end

