-- ==== Sys2Proof/Machine/Poly.lean ====
section
/-! DEFINITION. Polynomial Arithmetic (41_poly.md): strip, pmul, pmod, pgen, and PCLR, PPUSH, PMUL, PMOD, PGEN, PLEN, PGET.
A polynomial is its coefficients, highest power first (R90). -/
namespace Sys2Proof.Machine

/-- `strip(s)`: every zero byte from the front removed and nothing else (R91). -/
def strip (s : List Byte) : List Byte := s.dropWhile (· == 0)

/-- `zeros(n)` (R7). -/
def zeros (n : Nat) : List Byte := List.replicate n 0

/-- The inner loop of pmul: `out[k+j] <- out[k+j] xor gterm(u, b[j])` for every j (R94). -/
def mulRow (u : Byte) : List Byte → Nat → List Byte → Except FaultCode (List Byte)
  | [], _, out => .ok out
  | v :: b, k, out =>
    match gterm u v with
    | .error c => .error c
    | .ok t => mulRow u b (k + 1) (out.modify k (· ^^^ t))

/-- The outer loop of pmul, over the coefficients of a from index k on (R94). -/
def mulRows (b : List Byte) : List Byte → Nat → List Byte → Except FaultCode (List Byte)
  | [], _, out => .ok out
  | u :: a, k, out =>
    match mulRow u b k out with
    | .error c => .error c
    | .ok out => mulRows b a (k + 1) out

/-- `pmul(a, b)` on stripped operands (R94). -/
def pmulStripped (a b : List Byte) : Except FaultCode (List Byte) :=
  if a.length = 0 ∨ b.length = 0 then .ok []
  else if a.length + b.length - 1 > Config.polyMax then .error .plen
  else
    match mulRows b a 0 (zeros (a.length + b.length - 1)) with
    | .error c => .error c
    | .ok out => .ok (strip out)

/-- `pmul(a, b)` (R94). -/
def pmul (a b : List Byte) : Except FaultCode (List Byte) := pmulStripped (strip a) (strip b)

/-- One elimination pass of pmod: `a[i] <- a[i] xor gscale(b[i], ratio)` for every i of b (R96). -/
def elimRow (ratio : Int) : List Byte → List Byte → Except FaultCode (List Byte)
  | a, [] => .ok a
  | [], _ :: _ => .ok []
  | x :: a, y :: b =>
    match gscale y ratio with
    | .error c => .error c
    | .ok t =>
      match elimRow ratio a b with
      | .error c => .error c
      | .ok r => .ok ((x ^^^ t) :: r)

/-- `glog(a[0]) - glog(b[0])` (R96). -/
def leadRatio (a b : List Byte) : Except FaultCode Int :=
  match glog (a.headD 0) with
  | .error c => .error c
  | .ok x =>
    match glog (b.headD 0) with
    | .error c => .error c
    | .ok y => .ok ((x : Int) - (y : Int))

/-- The loop of pmod on stripped operands (R96); each pass shortens a (R97(a)), so `len(a)` passes are enough fuel. -/
def pmodLoop : Nat → List Byte → List Byte → Except FaultCode (List Byte)
  | 0, a, _ => .ok a
  | fuel + 1, a, b =>
    if a.length < b.length then .ok a
    else
      match leadRatio a b with
      | .error c => .error c
      | .ok ratio =>
        match elimRow ratio a b with
        | .error c => .error c
        | .ok a => pmodLoop fuel (strip a) b

/-- `pmod(a, b)` on stripped operands (R96). -/
def pmodStripped (a b : List Byte) : Except FaultCode (List Byte) :=
  if b.length = 0 then .error .domain else pmodLoop a.length a b

/-- `pmod(a, b)` (R96). -/
def pmod (a b : List Byte) : Except FaultCode (List Byte) := pmodStripped (strip a) (strip b)

/-- `pgen(n)`: the product of `[1, gexp(i)]` for i = 0..n-1 (R98). -/
def pgen : Nat → Except FaultCode (List Byte)
  | 0 => .ok [1]
  | n + 1 =>
    match pgen n with
    | .error c => .error c
    | .ok g => pmul g [1, gexp (n : Int)]

/-- `P[p] <- r` where r is computed on private storage and may fault instead (R106, R240). -/
def storePoly (s : State) (p : PReg) (r : Except FaultCode (List Byte)) : Except FaultCode State :=
  match r with
  | .error c => .error c
  | .ok v => .ok (s.setPoly p v)

/-- PCLR p: `P[p] <- []` (R99). -/
def execPclr (p : PReg) (s : State) : Result :=
  command (encode (.pclr p)) s fun s => .ok (s.setPoly p [])

/-- PPUSH p, c: E_PLEN when P[p] holds 256 coefficients (it never holds more, R22), else `P[p] <- strip(P[p] ++ [c])` (R100). -/
def execPpush (p : PReg) (c : Byte) (s : State) : Result :=
  command (encode (.ppush p c)) s fun s =>
    storePoly s p
      (if (s.poly p).length ≥ Config.polyMax then .error .plen else .ok (strip (s.poly p ++ [c])))

/-- PMUL pd, pa, pb: `P[pd] <- pmul(P[pa], P[pb])` (R101). -/
def execPmul (pd pa pb : PReg) (s : State) : Result :=
  command (encode (.pmul pd pa pb)) s fun s => storePoly s pd (pmul (s.poly pa) (s.poly pb))

/-- PMOD pd, pa, pb: `P[pd] <- pmod(P[pa], P[pb])` (R102). -/
def execPmod (pd pa pb : PReg) (s : State) : Result :=
  command (encode (.pmod pd pa pb)) s fun s => storePoly s pd (pmod (s.poly pa) (s.poly pb))

/-- PGEN p, n: `P[p] <- pgen(n)` (R103). -/
def execPgen (p : PReg) (n : Nat) (s : State) : Result :=
  command (encode (.pgen p n)) s fun s => storePoly s p (pgen n)

/-- PLEN p: `RES <- len(P[p])` (R104). -/
def execPlen (p : PReg) (s : State) : Result :=
  command (encode (.plen p)) s fun s => .ok (s.setRes (word (s.poly p).length))

/-- PGET p, i: E_RANGE when i ≥ len(P[p]), else `RES <- zext(P[p][i])` (R105). -/
def execPget (p : PReg) (i : Nat) (s : State) : Result :=
  command (encode (.pget p i)) s fun s =>
    inRange (i < (s.poly p).length) (s.setRes (zext ((s.poly p).getD i 0)))

end Sys2Proof.Machine
end

