-- ==== Sys2Proof/Machine/Frontend.lean ====
section
/-! DEFINITION. Payload input, Capacity/Version Selector and Bit Buffer (42_frontend.md): ICLR, IPUSH, SETLVL, SETVER, WRD,
SELVER, PACK. A stage's effect is a function of the state, so that ENCODE can run it whole (R196). -/
namespace Sys2Proof.Machine

/-- ICLR: `ILEN <- 0`; IBUF keeps its bytes (R110). -/
def execIclr (s : State) : Result :=
  command (encode .iclr) s fun s => .ok { s with ilen := 0 }

/-- The effect of IPUSH b (R111): the byte is stored while ILEN < 274, and counted up to 65535. -/
def ipushState (b : Byte) (s : State) : State :=
  { s with
    ibuf := if s.ilen.toNat < Config.ibufSize then s.ibuf.write s.ilen.toNat b else s.ibuf
    ilen := if s.ilen.toNat < Config.ilenMax then s.ilen + 1 else s.ilen }

/-- IPUSH b (R111). -/
def execIpush (b : Byte) (s : State) : Result :=
  command (encode (.ipush b)) s fun s => .ok (ipushState b s)

/-- SETLVL c: E_RANGE when c > 3, else `LEVEL <- c` (R114). -/
def execSetlvl (c : Nat) (s : State) : Result :=
  command (encode (.setlvl c)) s fun s => inRange (c ≤ 3) { s with level := BitVec.ofNat 2 c }

/-- SETVER v: E_RANGE when v < 1 or v > 10, else `VERSION <- v` (R112). -/
def execSetver (v : Nat) (s : State) : Result :=
  command (encode (.setver v)) s fun s =>
    inRange (1 ≤ v && v ≤ Config.maxVersion) { s with version := BitVec.ofNat 4 v }

/-- WRD i, b: E_RANGE when i > 273, else `MemWrite(DBUF, i, b)` (R119). -/
def execWrd (i : Nat) (b : Byte) (s : State) : Result :=
  command (encode (.wrd i b)) s fun s => inRange (i < Config.dbufSize) { s with dbuf := s.dbuf.write i b }

/-- The version SELVER picks: the first with capacity for ILEN bytes, else 10 (R115). -/
def selectVersion (level : BitVec 2) (ilen : Nat) : Nat :=
  ((List.range' 1 Config.maxVersion).find? fun v => ilen ≤ capacity v level).getD Config.maxVersion

/-- The effect of SELVER (R115): VERSION and OVF. -/
def selverState (s : State) : State :=
  { s with
    version := BitVec.ofNat 4 (selectVersion s.level s.ilen.toNat)
    ovf := selverOverflows s.level s.ilen.toNat }

/-- SELVER (R115). -/
def execSelver (s : State) : Result :=
  command (encode .selver) s fun s => .ok (selverState s)

/-- The bits that `put(value, w)` appends: bit w-1 first, bit 0 last (R44, R116). -/
def putBits (value w : Nat) : List Bool := (List.range w).map fun j => value.testBit (w - 1 - j)

/-- Byte k of the Bit Buffer is `{bits[8k], ..., bits[8k+7]}`, bits[8k] as bit 7 (R44, R116). -/
def byteOfBits (bits : List Bool) (k : Nat) : Byte :=
  BitVec.ofNat 8 ((List.range 8).foldl (fun acc j => 2 * acc + bit (bits.getD (8 * k + j) false)) 0)

/-- The mode indicator 0100, the length indicator and the payload bytes (R116, R117). -/
def payloadBits (v ilen : Nat) (ibuf : Memory) : List Bool :=
  putBits 0b0100 4 ++ putBits ilen (lenbits v) ++
    (ibuf.slice 0 (min ilen Config.ibufSize)).flatMap fun b => putBits b.toNat 8

/-- "if room remains", the terminator of four 0 bits (R117). -/
def addTerminator (capbits : Nat) (bits : List Bool) : List Bool :=
  if bits.length + 4 ≤ capbits then bits ++ putBits 0 4 else bits

/-- Zero bits to the next byte boundary (R117). -/
def padToByte (bits : List Bool) : List Bool := bits ++ List.replicate ((8 - bits.length % 8) % 8) false

/-- Pad byte number k: 0xEC when k is even, 0x11 when it is odd (R117). -/
def padByte (k : Nat) : Nat := if k % 2 = 0 then 0xEC else 0x11

/-- Pad bytes until the length is capbits (R117); both lengths are multiples of 8 here. -/
def addPadBytes (capbits : Nat) (bits : List Bool) : List Bool :=
  bits ++ (List.range ((capbits - bits.length) / 8)).flatMap fun k => putBits (padByte k) 8

/-- The whole bit stream of PACK: the payload cut at capbits when it is too long (R118), else terminated and padded
(R117). -/
def packBits (capbits : Nat) (bits : List Bool) : List Bool :=
  addPadBytes capbits (padToByte (addTerminator capbits (bits.take capbits)))

/-- The bytes PACK writes to DBUF[0..D-1] (R117). -/
def packBytes (v : Nat) (level : BitVec 2) (ilen : Nat) (ibuf : Memory) : List Byte :=
  let bits := packBits (8 * dtotOf v level) (payloadBits v ilen ibuf)
  (List.range (dtotOf v level)).map (byteOfBits bits)

/-- The effect of PACK (R117): DBUF[0..D-1] and OVF. -/
def packState (s : State) : State :=
  { s with
    dbuf := s.dbuf.writeBlock 0 (packBytes s.version.toNat s.level s.ilen.toNat s.ibuf)
    ovf := packOverflows (payloadBits s.version.toNat s.ilen.toNat s.ibuf).length (8 * s.dtot) }

/-- PACK (R117). -/
def execPack (s : State) : Result :=
  command (encode .pack) s fun s => .ok (packState s)

end Sys2Proof.Machine
end

