-- ==== Sys2Proof/Machine/ReedSolomon.lean ====
section
/-! DEFINITION. RS Block Planner and Codeword Interleaver (43_rs_interleave.md): RSENC and ILV. Both work on private storage
and touch no polynomial register (R29). -/
namespace Sys2Proof.Machine

/-- `off[b]` beside each block: the data lengths of the blocks before it (R131). -/
def withOffsets : Nat → List RSBlock → List (RSBlock × Nat)
  | _, [] => []
  | off, b :: bs => (b, off) :: withOffsets (off + b.data) bs

/-- ecCount of (v, level): the same for every block of the row (R132(a)). -/
def ecCountOf (v : Nat) (level : BitVec 2) : Nat :=
  match blocks v level with
  | [] => 0
  | b :: _ => b.ec

/-- `zeros(ecCount - len(r)) ++ r` (R137). -/
def rightAlign (n : Nat) (r : List Byte) : List Byte := zeros (n - r.length) ++ r

/-- The EC codewords of one block with data codewords d: the remainder of d(x)·x^ec divided by pgen(ec), right-aligned
(R133, R134, R137). -/
def ecCodewords (d : List Byte) (ec : Nat) : Except FaultCode (List Byte) :=
  match pgen ec with
  | .error c => .error c
  | .ok g =>
    match pmod (d ++ zeros ec) g with
    | .error c => .error c
    | .ok r => .ok (rightAlign ec r)

/-- The EC codewords of all blocks, block 0 first: EC codeword i of block b stands at b·ecCount + i (R25, R134). -/
def ecBytes (dbuf : Memory) : List (RSBlock × Nat) → Except FaultCode (List Byte)
  | [] => .ok []
  | (b, off) :: rest =>
    match ecCodewords (dbuf.slice off b.data) b.ec with
    | .error c => .error c
    | .ok e =>
      match ecBytes dbuf rest with
      | .error c => .error c
      | .ok es => .ok (e ++ es)

/-- The effect of RSENC (R134): ECBUF[0..B·ecCount-1]. The pseudocode's pmod could raise; R135 says why it does not. -/
def rsencState (s : State) : Except FaultCode State :=
  match ecBytes s.dbuf (withOffsets 0 (blocks s.version.toNat s.level)) with
  | .error c => .error c
  | .ok es => .ok { s with ecbuf := s.ecbuf.writeBlock 0 es }

/-- RSENC (R134). -/
def execRsenc (s : State) : Result := command (encode .rsenc) s rsencState

/-- Column i of the data codewords: codeword i of each block that has one (R136). -/
def dataColumn (dbuf : Memory) (bs : List (RSBlock × Nat)) (i : Nat) : List Byte :=
  (bs.filter fun b => i < b.1.data).map fun b => dbuf.read (b.2 + i)

/-- Column i of the EC codewords: EC codeword i of each of the B blocks (R136). -/
def ecColumn (ecbuf : Memory) (nblocks ec i : Nat) : List Byte :=
  (List.range nblocks).map fun b => ecbuf.read (b * ec + i)

/-- `max(data[b])` (R136). -/
def maxData (bs : List RSBlock) : Nat := (bs.map RSBlock.data).foldl max 0

/-- The final codeword sequence: data columns, then EC columns (R136). -/
def interleave (v : Nat) (level : BitVec 2) (dbuf ecbuf : Memory) : List Byte :=
  let bs := blocks v level
  ((List.range (maxData bs)).flatMap (dataColumn dbuf (withOffsets 0 bs))) ++
    (List.range (ecCountOf v level)).flatMap (ecColumn ecbuf bs.length (ecCountOf v level))

/-- The effect of ILV (R136): CW[0..k-1] and CWLEN. -/
def ilvState (s : State) : State :=
  let k := interleave s.version.toNat s.level s.dbuf s.ecbuf
  { s with cw := s.cw.writeBlock 0 k, cwlen := BitVec.ofNat 9 k.length }

/-- ILV (R136). -/
def execIlv (s : State) : Result :=
  command (encode .ilv) s fun s => .ok (ilvState s)

end Sys2Proof.Machine
end

