-- ==== Sys2Proof/Machine/Build.lean ====
section
/-! DEFINITION. Matrix Builder (44_matrix.md): function patterns, reserved cells, zigzag placement under a mask, BUILD. BUILD
clears the whole matrix first (R151), so what it leaves is given cell by cell: the colour that the last of its steps to
write the cell gave it (R159), and unset outside N × N. -/
namespace Sys2Proof.Machine

/-- N = 4·v + 17 (R16). -/
def moduleCount (v : Nat) : Nat := 4 * v + 17

/-- dark for true, light for false: "a 1 bit is dark, a 0 bit is light" (R158, R191). -/
def colour (b : Bool) : Module := if b then .dark else .light

/-- The cell is among the 9 × 9 cells dr, dc = -1..7 around the finder origin (r0, c0) (R152). -/
def inFinder (r0 c0 r c : Nat) : Bool := r0 ≤ r + 1 && r ≤ r0 + 7 && c0 ≤ c + 1 && c ≤ c0 + 7

/-- The three lines of `dark` in R152, with r = r0 + dr and c = c0 + dc. -/
def finderDark (r0 c0 r c : Nat) : Bool :=
  (r0 ≤ r && r ≤ r0 + 6 && (c == c0 || c == c0 + 6)) ||
  (c0 ≤ c && c ≤ c0 + 6 && (r == r0 || r == r0 + 6)) ||
  (r0 + 2 ≤ r && r ≤ r0 + 4 && c0 + 2 ≤ c && c ≤ c0 + 4)

/-- The finder origins: top-left, bottom-left, top-right (R152). -/
def finderOrigins (n : Nat) : List (Nat × Nat) := [(0, 0), (n - 7, 0), (0, n - 7)]

/-- Step 2: the colour of a finder pattern or separator cell (R152). -/
def finderCell (n r c : Nat) : Option Module :=
  ((finderOrigins n).find? fun o => inFinder o.1 o.2 r c).map fun o => colour (finderDark o.1 o.2 r c)

/-- Step 3: the colour of a timing cell that step 2 left unset, dark at even index (R153). -/
def timingCell (r c : Nat) : Option Module :=
  if r = 6 then some (colour (c % 2 == 0))
  else if c = 6 then some (colour (r % 2 == 0))
  else none

/-- |a - b|. -/
def absDiff (a b : Nat) : Nat := (a - b) + (b - a)

/-- Step 4: the colour of an alignment pattern cell: dark when max(|dr|, |dc|) is 0 or 2 (R154). -/
def alignCell (v r c : Nat) : Option Module :=
  ((alignCentres v).find? fun a => absDiff r a.1 ≤ 2 && absDiff c a.2 ≤ 2).map fun a =>
    colour (max (absDiff r a.1) (absDiff c a.2) != 1)

/-- Copy A of format bit i, in column 8 (R191). -/
def copyA (n i : Nat) : Nat × Nat := if i < 6 then (i, 8) else if i < 8 then (i + 1, 8) else (n - 15 + i, 8)

/-- Copy B of format bit i, in row 8 (R191). -/
def copyB (n i : Nat) : Nat × Nat := if i < 8 then (8, n - 1 - i) else if i = 8 then (8, 7) else (8, 14 - i)

/-- Block A of version bit i, top-right (R193). -/
def blockA (n i : Nat) : Nat × Nat := (i / 3, i % 3 + n - 11)

/-- Block B of version bit i, bottom-left (R193). -/
def blockB (n i : Nat) : Nat × Nat := (i % 3 + n - 11, i / 3)

/-- The 30 format cells (R191). -/
def formatCells (n : Nat) : List (Nat × Nat) := (List.range 15).flatMap fun i => [copyA n i, copyB n i]

/-- The 36 version cells, for version 7 and above only (R193). -/
def versionCells (v : Nat) : List (Nat × Nat) :=
  if 7 ≤ v then (List.range 18).flatMap fun i => [blockA (moduleCount v) i, blockB (moduleCount v) i] else []

/-- The cell of the fixed dark module, (N-8, 8) (R155(b), R159). -/
def darkModule (n : Nat) : Nat × Nat := (n - 8, 8)

/-- Step 4a: the reserved cells (R155). -/
def isReserved (v r c : Nat) : Bool :=
  (r, c) == darkModule (moduleCount v) || (formatCells (moduleCount v)).contains (r, c) ||
    (versionCells v).contains (r, c)

/-- The matrix before placement, steps 1 to 4a, inside N × N: a reserved cell is light, else the alignment pattern has
overwritten what was there, else the finder pattern, else the timing pattern where the cell was still unset (R151 to
R155). -/
def patternCell (v r c : Nat) : Module :=
  if isReserved v r c then .light
  else
    match alignCell v r c with
    | some k => k
    | none =>
      match finderCell (moduleCount v) r c with
      | some k => k
      | none => (timingCell r c).getD .unset

/-- The right columns of the column pairs, in order: N-1, N-3, ..., 8, then 5, 3, 1 (R156). -/
def pairColumns (n : Nat) : List Nat :=
  (List.range ((n - 1) / 2)).map fun k => if n - 1 - 2 * k ≤ 6 then n - 2 - 2 * k else n - 1 - 2 * k

/-- The rows of pair number k: the first pair is walked upward, the second downward, and so on alternating (R156). -/
def pairRows (n k : Nat) : List Nat := if k % 2 = 0 then (List.range n).reverse else List.range n

/-- Every cell the traversal visits, in order: in each row of a pair the right column first, then the left (R156). -/
def zigzag (n : Nat) : List (Nat × Nat) :=
  (pairColumns n).zipIdx.flatMap fun p => (pairRows n p.2).flatMap fun r => [(r, p.1), (r, p.1 - 1)]

/-- The data cells in placement order: the visited cells that are still unset; one that is not "uses up no bit" (R156). -/
def dataCells (v : Nat) : List (Nat × Nat) :=
  (zigzag (moduleCount v)).filter fun p => patternCell v p.1 p.2 == .unset

/-- The eight mask predicates (R157). -/
def maskfn (m r c : Nat) : Bool :=
  match m with
  | 0 => (r + c) % 2 == 0
  | 1 => r % 2 == 0
  | 2 => c % 3 == 0
  | 3 => (r + c) % 3 == 0
  | 4 => (r / 2 + c / 3) % 2 == 0
  | 5 => (r * c) % 2 + (r * c) % 3 == 0
  | 6 => ((r * c) % 2 + (r * c) % 3) % 2 == 0
  | _ => ((r * c) % 3 + (r + c) % 2) % 2 == 0

/-- Bit number n of the codeword stream: byte n div 8, bit 7 first; 0 past CWLEN codewords (R45, R158). -/
def streamBit (cw : Memory) (cwlen n : Nat) : Bool :=
  n / 8 < cwlen && (cw.read (n / 8)).toNat.testBit (7 - n % 8)

/-- `place(r, c)` with bit counter n under mask m (R158). -/
def placedCell (cw : Memory) (cwlen m n r c : Nat) : Module := colour (streamBit cw cwlen n ^^ maskfn m r c)

/-- The cell (r, c) of the N × N grid after BUILD m: the dark module (step 7), a pattern or reserved cell (steps 2 to 4a),
or the data cell that is number n of the traversal (steps 5 and 6) (R159); `cells` is `dataCells v`. -/
def builtCell (v : Nat) (cells : List (Nat × Nat)) (cw : Memory) (cwlen m r c : Nat) : Module :=
  if (r, c) = darkModule (moduleCount v) then .dark
  else
    match patternCell v r c with
    | .light => .light
    | .dark => .dark
    | .unset =>
      match cells.idxOf? (r, c) with
      | some n => placedCell cw cwlen m n r c
      | none => .unset

/-- The matrix BUILD m leaves (R159). -/
def builtMatrix (v : Nat) (cw : Memory) (cwlen m : Nat) : Matrix :=
  let cells := dataCells v
  Matrix.tabulate fun r c =>
    if r < moduleCount v ∧ c < moduleCount v then builtCell v cells cw cwlen m r c else .unset

/-- The effect of BUILD m for m in 0..7 (R159): MAT, MASK, FINAL. -/
def buildState (m : Nat) (s : State) : State :=
  { s with
    mat := builtMatrix s.version.toNat s.cw s.cwlen.toNat m
    mask := BitVec.ofNat 3 m
    final := false }

/-- BUILD m: E_RANGE when m > 7 (R159). -/
def execBuild (m : Nat) (s : State) : Result :=
  command (encode (.build m)) s fun s => inRange (m ≤ 7) (buildState m s)

end Sys2Proof.Machine
end

