-- ==== Sys2Proof/Machine/Score.lean ====
section
/-! DEFINITION. Mask Evaluator (45_mask_eval.md): the penalty rules A, B and C, SCORE and EVAL. -/
namespace Sys2Proof.Machine

/-- The eight neighbours of (r, c) as (r+dr+1, c+dc+1), dr and dc in -1..1 and not both 0 (R171). -/
def neighbours (r c : Nat) : List (Nat × Nat) :=
  [(r, c), (r, c + 1), (r, c + 2), (r + 1, c), (r + 1, c + 2), (r + 2, c), (r + 2, c + 1), (r + 2, c + 2)]

/-- A neighbour, shifted by one as above, lies inside the grid and has the colour `k` (R171). -/
def sharesColour (n : Nat) (m : Matrix) (k : Module) (p : Nat × Nat) : Bool :=
  1 ≤ p.1 && p.1 ≤ n && 1 ≤ p.2 && p.2 ≤ n && m.read (p.1 - 1) (p.2 - 1) == k

/-- `same(r, c)` (R171). -/
def sameCount (n : Nat) (m : Matrix) (r c : Nat) : Nat :=
  (neighbours r c).countP (sharesColour n m (m.read r c))

/-- What a cell with `same` neighbours of its colour contributes to rule A (R171). -/
def ruleACell (same : Nat) : Nat := if 5 ≤ same then 3 + (same - 5) else 0

/-- The cells of the N × N grid. -/
def gridCells (n : Nat) : List (Nat × Nat) := (List.range n).flatMap fun r => (List.range n).map fun c => (r, c)

/-- `ruleA` (R171). -/
def ruleA (n : Nat) (m : Matrix) : Nat := ((gridCells n).map fun p => ruleACell (sameCount n m p.1 p.2)).sum

/-- `pat` = dark, light, dark, dark, dark, light, dark (R172). -/
def finderLike : List Module := [.dark, .light, .dark, .dark, .dark, .light, .dark]

/-- `M(r, c+k) = pat[k]` for all k in 0..6 (R172). -/
def rowMatch (m : Matrix) (r c : Nat) : Bool := (List.range 7).all fun k => m.read r (c + k) == finderLike.getD k .unset

/-- `M(r+k, c) = pat[k]` for all k in 0..6 (R172). -/
def colMatch (m : Matrix) (r c : Nat) : Bool := (List.range 7).all fun k => m.read (r + k) c == finderLike.getD k .unset

/-- The matches in rows: every row, every start column 0..N-7 (R172). -/
def rowMatches (n : Nat) (m : Matrix) : Nat :=
  ((List.range n).map fun r => (List.range (n - 6)).countP fun c => rowMatch m r c).sum

/-- The matches in columns: every column, every start row 0..N-7 (R172). -/
def colMatches (n : Nat) (m : Matrix) : Nat :=
  ((List.range n).map fun c => (List.range (n - 6)).countP fun r => colMatch m r c).sum

/-- `ruleB`: 40 for every match (R172). -/
def ruleB (n : Nat) (m : Matrix) : Nat := 40 * (rowMatches n m + colMatches n m)

/-- The number of dark cells of the N × N grid (R173). -/
def darkCount (n : Nat) (m : Matrix) : Nat := (gridCells n).countP fun p => m.read p.1 p.2 == .dark

/-- `10 · (|100·dark - 50·N²| div (5·N²))` (R173). -/
def ruleCOf (n dark : Nat) : Nat := 10 * (absDiff (100 * dark) (50 * (n * n)) / (5 * (n * n)))

/-- `ruleC` (R173). -/
def ruleC (n : Nat) (m : Matrix) : Nat := ruleCOf n (darkCount n m)

/-- The effect of SCORE (R174): PENA, PENB, PENC and their sum in RES. -/
def scoreState (s : State) : State :=
  let a := word (ruleA s.nmod s.mat)
  let b := word (ruleB s.nmod s.mat)
  let c := word (ruleC s.nmod s.mat)
  { s with pena := a, penb := b, penc := c, res := a + b + c }

/-- SCORE (R174). -/
def execScore (s : State) : Result :=
  command (encode .score) s fun s => .ok (scoreState s)

/-- `PEN[m]` (R20). -/
def State.penalty (s : State) (m : Nat) : Word := s.pen.toList.getD m 0

/-- One trial of EVAL: `BUILD m; SCORE; PEN[m] <- RES` (R176). -/
def trialState (m : Nat) (s : State) : State :=
  let t := scoreState (buildState m s)
  { t with pen := t.pen.setIfInBounds m t.res }

/-- The trials of a list of masks, in order (R176). -/
def trialsState (ms : List Nat) (s : State) : State := ms.foldl (fun s m => trialState m s) s

/-- `if m > 0 and PEN[m] < PEN[best]: best <- m` (R176). -/
def betterMask (s : State) (best m : Nat) : Nat := if 0 < m ∧ s.penalty m < s.penalty best then m else best

/-- The least index with the minimal total: "strictly lower only", in ascending order (R176). -/
def bestMask (s : State) : Nat := (List.range 8).foldl (betterMask s) 0

/-- The effect of EVAL (R176). A trial writes no total but its own, so the running best is found from the eight totals. -/
def evalState (s : State) : State :=
  let t := trialsState (List.range 8) s
  let best := bestMask t
  { t with best := BitVec.ofNat 3 best, res := word best }

/-- EVAL (R176). -/
def execEval (s : State) : Result :=
  command (encode .eval) s fun s => .ok (evalState s)

end Sys2Proof.Machine
end

