-- ==== Sys2Proof/Machine/Format.lean ====
section
/-! DEFINITION. Format/Version Info Encoder and the composite commands (46_format_final.md): FMT, VINF, WRFMT, FINAL,
ENCODE. -/
namespace Sys2Proof.Machine

/-- `bitlen(v)`: 0 for 0, else 1 + index of the top 1 bit (R187). -/
def bitlen (v : Nat) : Nat := if v = 0 then 0 else Nat.log2 v + 1

/-- The loop of bchrem; each pass clears the top bit of v, so bitlen(v) passes are enough fuel (R187). -/
def bchremLoop : Nat → Nat → Nat → Nat
  | 0, v, _ => v
  | fuel + 1, v, g =>
    if bitlen v < bitlen g then v else bchremLoop fuel (v ^^^ (g <<< (bitlen v - bitlen g))) g

/-- `bchrem(v, g)`, the remainder of v by g as polynomials over GF(2) (R187). -/
def bchrem (v g : Nat) : Nat := bchremLoop (bitlen v) v g

/-- `fmt15(d5)` (R189). -/
def fmt15 (d : Nat) : Nat := ((d <<< 10) ||| bchrem (d <<< 10) g15) ^^^ fmask

/-- `vinf18(d6)` (R192). -/
def vinf18 (d : Nat) : Nat := (d <<< 12) ||| bchrem (d <<< 12) g18

/-- FMT d: E_RANGE when d > 31, else `RES <- zext(fmt15(d))` (R188). -/
def execFmt (d : Nat) (s : State) : Result :=
  command (encode (.fmt d)) s fun s => inRange (d ≤ 31) (s.setRes (word (fmt15 d)))

/-- VINF d: E_RANGE when d > 63, else `RES <- zext(vinf18(d))` (R190). -/
def execVinf (d : Nat) (s : State) : Result :=
  command (encode (.vinf d)) s fun s => inRange (d ≤ 63) (s.setRes (word (vinf18 d)))

/-- The format data word `(LEVEL << 3) or MASK` (R186). -/
def State.formatData (s : State) : Nat := (s.level.toNat <<< 3) ||| s.mask.toNat

/-- WRFMT's writes of the format word f, both copies of each bit (R194). -/
def formatWrites (n f : Nat) : List ((Nat × Nat) × Module) :=
  (List.range 15).flatMap fun i => [(copyA n i, colour (f.testBit i)), (copyB n i, colour (f.testBit i))]

/-- WRFMT's writes of the version word, both blocks of each bit, for version 7 and above (R194). -/
def versionWrites (v : Nat) : List ((Nat × Nat) × Module) :=
  if 7 ≤ v then
    (List.range 18).flatMap fun i =>
      [(blockA (moduleCount v) i, colour ((vinf18 v).testBit i)), (blockB (moduleCount v) i, colour ((vinf18 v).testBit i))]
  else []

/-- The effect of WRFMT (R194): the format and version cells, and FINAL. -/
def wrfmtState (s : State) : State :=
  { s with
    mat := s.mat.overwrite (formatWrites s.nmod (fmt15 s.formatData) ++ versionWrites s.version.toNat)
    final := true }

/-- WRFMT (R194). -/
def execWrfmt (s : State) : Result :=
  command (encode .wrfmt) s fun s => .ok (wrfmtState s)

/-- The effect of FINAL: `BUILD BEST`, then `WRFMT` (R195). -/
def finalState (s : State) : State := wrfmtState (buildState s.best.toNat s)

/-- FINAL (R195). -/
def execFinal (s : State) : Result :=
  command (encode .final) s fun s => .ok (finalState s)

/-- The effect of ENCODE: SELVER, PACK, RSENC, ILV, EVAL, FINAL, each whole (R196). -/
def encodeState (s : State) : Except FaultCode State :=
  match rsencState (packState (selverState s)) with
  | .error c => .error c
  | .ok t => .ok (finalState (evalState (ilvState t)))

/-- ENCODE (R196). -/
def execEncode (s : State) : Result := command (encode .encode) s encodeState

end Sys2Proof.Machine
end

