-- ==== Sys2Proof/Machine/System.lean ====
section
/-! DEFINITION. System and readback commands (47_system_readback.md): NOP, SRST, RDCSR, RDI, RDD, RDEC, RDCW, RDMOD. -/
namespace Sys2Proof.Machine

/-- NOP: nothing (R205). -/
def execNop (s : State) : Result :=
  command (encode .nop) s fun s => .ok s

/-- SRST: the reset transition; "the only command that executes in the FAULT state" (R206, R241). -/
def execSrst (s : State) : Result := .next s.toReset

/-- The register numbered n, zero-extended; none for an unassigned number (R21, R208). -/
def State.csr (s : State) : Nat → Option Word
  | 0x00 => some s.status
  | 0x01 => some (zext s.err)
  | 0x02 => some s.ecmd
  | 0x03 => some (zext s.level)
  | 0x04 => some (zext s.version)
  | 0x05 => some (word s.nmod)
  | 0x06 => some (zext s.mask)
  | 0x07 => some (zext s.best)
  | 0x08 => some (zext s.ilen)
  | 0x09 => some (word s.dtot)
  | 0x0A => some (zext s.cwlen)
  | 0x0C => some s.pena
  | 0x0D => some s.penb
  | 0x0E => some s.penc
  | 0x10 => some (s.penalty 0)
  | 0x11 => some (s.penalty 1)
  | 0x12 => some (s.penalty 2)
  | 0x13 => some (s.penalty 3)
  | 0x14 => some (s.penalty 4)
  | 0x15 => some (s.penalty 5)
  | 0x16 => some (s.penalty 6)
  | 0x17 => some (s.penalty 7)
  | _ => none

/-- RDCSR n: E_RANGE for an unassigned number, else RES receives the register (R208). -/
def execRdcsr (n : Nat) (s : State) : Result :=
  command (encode (.rdcsr n)) s fun s =>
    match s.csr n with
    | none => .error .range
    | some v => .ok (s.setRes v)

/-- RDI i: E_RANGE when i > 273, else `RES <- zext(MemRead(IBUF, i))` (R209). -/
def execRdi (i : Nat) (s : State) : Result :=
  command (encode (.rdi i)) s fun s => inRange (i < Config.ibufSize) (s.setRes (zext (s.ibuf.read i)))

/-- RDD i: E_RANGE when i > 273, else `RES <- zext(MemRead(DBUF, i))` (R210). -/
def execRdd (i : Nat) (s : State) : Result :=
  command (encode (.rdd i)) s fun s => inRange (i < Config.dbufSize) (s.setRes (zext (s.dbuf.read i)))

/-- RDEC i: E_RANGE when i > 223, else `RES <- zext(MemRead(ECBUF, i))` (R211). -/
def execRdec (i : Nat) (s : State) : Result :=
  command (encode (.rdec i)) s fun s => inRange (i < Config.ecbufSize) (s.setRes (zext (s.ecbuf.read i)))

/-- RDCW i: E_RANGE when i > 345, else `RES <- zext(MemRead(CW, i))` (R212). -/
def execRdcw (i : Nat) (s : State) : Result :=
  command (encode (.rdcw i)) s fun s => inRange (i < Config.cwSize) (s.setRes (zext (s.cw.read i)))

/-- A cell is "read back as 0, 1, 2" (R27, R213). -/
def Module.code : Module → Nat
  | .unset => 0
  | .light => 1
  | .dark => 2

/-- RDMOD row, col: E_RANGE when row > 56 or col > 56, else RES receives the cell's code (R213). -/
def execRdmod (row col : Nat) (s : State) : Result :=
  command (encode (.rdmod row col)) s fun s =>
    inRange (row < Config.matSize && col < Config.matSize) (s.setRes (word (s.mat.read row col).code))

end Sys2Proof.Machine
end

