-- ==== Sys2Proof/Machine/Dispatch.lean ====
section
/-! DEFINITION. The one dispatch: each command to its meaning (R63). -/
namespace Sys2Proof.Machine

def exec (i : Instr) (s : State) : Host.Outcome State Fault Refusal :=
  match i with
  | .nop => Sys2Proof.Machine.execNop s
  | .srst => Sys2Proof.Machine.execSrst s
  | .rdcsr n => Sys2Proof.Machine.execRdcsr n s
  | .gexp n => Sys2Proof.Machine.execGexp n s
  | .glog n => Sys2Proof.Machine.execGlog n s
  | .rdexp k => Sys2Proof.Machine.execRdexp k s
  | .pclr p => Sys2Proof.Machine.execPclr p s
  | .ppush p c => Sys2Proof.Machine.execPpush p c s
  | .pmul pd pa pb => Sys2Proof.Machine.execPmul pd pa pb s
  | .pmod pd pa pb => Sys2Proof.Machine.execPmod pd pa pb s
  | .pgen p n => Sys2Proof.Machine.execPgen p n s
  | .plen p => Sys2Proof.Machine.execPlen p s
  | .pget p k => Sys2Proof.Machine.execPget p k s
  | .iclr => Sys2Proof.Machine.execIclr s
  | .ipush b => Sys2Proof.Machine.execIpush b s
  | .setlvl c => Sys2Proof.Machine.execSetlvl c s
  | .setver v => Sys2Proof.Machine.execSetver v s
  | .wrd k b => Sys2Proof.Machine.execWrd k b s
  | .selver => Sys2Proof.Machine.execSelver s
  | .pack => Sys2Proof.Machine.execPack s
  | .rsenc => Sys2Proof.Machine.execRsenc s
  | .ilv => Sys2Proof.Machine.execIlv s
  | .build m => Sys2Proof.Machine.execBuild m s
  | .score => Sys2Proof.Machine.execScore s
  | .eval => Sys2Proof.Machine.execEval s
  | .wrfmt => Sys2Proof.Machine.execWrfmt s
  | .final => Sys2Proof.Machine.execFinal s
  | .encode => Sys2Proof.Machine.execEncode s
  | .fmt d => Sys2Proof.Machine.execFmt d s
  | .vinf d => Sys2Proof.Machine.execVinf d s
  | .rdi k => Sys2Proof.Machine.execRdi k s
  | .rdd k => Sys2Proof.Machine.execRdd k s
  | .rdec k => Sys2Proof.Machine.execRdec k s
  | .rdcw k => Sys2Proof.Machine.execRdcw k s
  | .rdmod row col => Sys2Proof.Machine.execRdmod row col s

end Sys2Proof.Machine
end

