-- ==== Sys2Proof/Machine/Ports.lean ====
section
/-! DEFINITION. The ports (R60): accepting a command word (R52, R65), the `rst` input (R260), and the outputs. -/
namespace Sys2Proof.Machine

/-- The one word that is SRST (R206, R241). -/
def srstWord : Word := 0x01000000

/-- Accepting the command word W, first hit wins (R65): in the FAULT state every word but SRST is discarded, not decoded
(R241); an illegal word raises E_ILLEGAL (R64); else the command it decodes to runs. -/
def acceptWord (w : Word) (s : State) : Result :=
  if s.faulted && w != srstWord then .next s
  else
    match decode w with
    | .error _ => .next (s.raise .illegal w)
    | .ok i => exec i s

/-- What the block does with what the host drives when it is ready: reset while `rst` is high, when no word is accepted
(R260); the command word when `cmd_valid` is high (R52); nothing otherwise. -/
def samplePorts (p : PortIn) (s : State) : Result :=
  if p.rst then .next s.toReset
  else if p.cmdValid then acceptWord p.cmdWord s
  else .next s

/-- What the host drives to present a command word. -/
def PortIn.present (w : Word) : PortIn := { rst := false, cmdValid := true, cmdWord := w }

/-- What the host drives to reset the block. -/
def PortIn.reset : PortIn := { rst := true, cmdValid := false, cmdWord := 0 }

/-- One step: the block samples what the host drives next; when the host drives nothing more, nothing happens. -/
def nextStep (s : State) : Result :=
  match s.host with
  | [] => .next s
  | p :: rest => samplePorts p { s with host := rest }

/-- The output ports (R60) as they show whenever `cmd_ready` is high (R265). -/
structure Outputs where
  res : Word
  fault : Bool
  ovf : Bool
  final : Bool
  err : BitVec 4
  ecmd : Word
  deriving DecidableEq, Repr

/-- "The outputs show the registers continuously" (R60). -/
def State.outputs (s : State) : Outputs :=
  { res := s.res, fault := s.faulted, ovf := s.ovf, final := s.final, err := s.err, ecmd := s.ecmd }

/-- `cmd_ready` between two commands: high unless `rst` is high (R52, R260). -/
def cmdReady (p : PortIn) : Bool := !p.rst

end Sys2Proof.Machine
end

