-- ==== Sys2Proof/Machine/Step.lean ====
section
/-! DEFINITION. One step of the machine, and a state whose next step runs a given word. -/
namespace Sys2Proof.Machine

/-- One step per accepted command (R52). -/
def step (s : State) : Host.Outcome State Fault Refusal := nextStep s

/-- The state in which the host presents the word next (R11: the host decides which command comes next). -/
def State.withFetchWord (s : State) (nbits w : Nat) : State :=
  { s with host := PortIn.present (BitVec.ofNat 32 (w % 2 ^ nbits)) :: s.host }

end Sys2Proof.Machine
end

