-- ==== Sys2Proof/Machine/BuildSteps.lean ====
section
/-! DEFINITION. BUILD written as the sequence of writes that R151 to R159 give, one cell at a time and in their order: the
plain reading that Build.lean's cell-by-cell form is held against. It takes no part in a step. -/
namespace Sys2Proof.Machine

/-- `set(r, c, colour)`: one cell (R43). -/
def Matrix.set (m : Matrix) (r c : Nat) (k : Module) : Matrix :=
  if h : r < 57 ∧ c < 57 then Vector.set m r (Vector.set (m[r]'h.1) c k h.2) h.1 else m

/-- A write of a cell: where, and the colour. -/
abbrev CellWrite := (Nat × Nat) × Module

/-- The writes, one after another. -/
def Matrix.stamp (m : Matrix) (ws : List CellWrite) : Matrix :=
  ws.foldl (fun m w => m.set w.1.1 w.1.2 w.2) m

/-- The writes, one after another, those to a cell that is no longer unset left out: "skipping already-set cells" (R153). -/
def Matrix.stampUnset (m : Matrix) (ws : List CellWrite) : Matrix :=
  ws.foldl (fun m w => if m.read w.1.1 w.1.2 = .unset then m.set w.1.1 w.1.2 w.2 else m) m

/-- `lo, lo + 1, ..., lo + k - 1`. -/
def intRange (lo : Int) (k : Nat) : List Int := (List.range k).map fun i => lo + (i : Int)

/-- `dark` of R152 at (dr, dc). -/
def finderDarkAt (dr dc : Int) : Bool :=
  (0 ≤ dr && dr ≤ 6 && (dc == 0 || dc == 6)) || (0 ≤ dc && dc ≤ 6 && (dr == 0 || dr == 6)) ||
    (2 ≤ dr && dr ≤ 4 && 2 ≤ dc && dc ≤ 4)

/-- Step 2 at one origin: dr, dc in -1..7, the cells inside the grid (R152). -/
def finderWritesAt (n : Nat) (r0 c0 : Int) : List CellWrite :=
  (intRange (-1) 9).flatMap fun dr => (intRange (-1) 9).flatMap fun dc =>
    if 0 ≤ r0 + dr ∧ r0 + dr < n ∧ 0 ≤ c0 + dc ∧ c0 + dc < n then
      [(((r0 + dr).toNat, (c0 + dc).toNat), colour (finderDarkAt dr dc))]
    else []

/-- Step 2 (R152). -/
def finderWrites (n : Nat) : List CellWrite :=
  finderWritesAt n 0 0 ++ finderWritesAt n ((n : Int) - 7) 0 ++ finderWritesAt n 0 ((n : Int) - 7)

/-- Step 3 (R153). -/
def timingWrites (n : Nat) : List CellWrite :=
  (List.range n).flatMap fun k => [((6, k), colour (k % 2 == 0)), ((k, 6), colour (k % 2 == 0))]

/-- `max(|dr|, |dc|)` is 0 or 2 (R154). -/
def alignDarkAt (dr dc : Int) : Bool := max dr.natAbs dc.natAbs == 0 || max dr.natAbs dc.natAbs == 2

/-- Step 4 (R150, R154). -/
def alignWrites (v : Nat) : List CellWrite :=
  (alignCentres v).flatMap fun a => (intRange (-2) 5).flatMap fun dr => (intRange (-2) 5).map fun dc =>
    ((((a.1 : Int) + dr).toNat, ((a.2 : Int) + dc).toNat), colour (alignDarkAt dr dc))

/-- Step 4a (R155): the format cells, (N-8, 8), the version cells. -/
def reservedWrites (v : Nat) : List CellWrite :=
  (formatCells (moduleCount v) ++ [darkModule (moduleCount v)] ++ versionCells v).map fun p => (p, .light)

/-- The variables of the traversal (R156) with the bit counter (R158), and the matrix it works on. -/
structure Walk where
  mat : Matrix
  row : Int
  dir : Int
  col : Int
  placed : Nat
  deriving DecidableEq, Repr

/-- `if MemRead(MAT, (row, c)) = unset: place(row, c)` (R156, R158). -/
def Walk.place (cw : Memory) (cwlen m : Nat) (w : Walk) (c : Int) : Walk :=
  let r := w.row.toNat
  if w.mat.read r c.toNat = .unset then
    { w with mat := w.mat.set r c.toNat (placedCell cw cwlen m w.placed r c.toNat), placed := w.placed + 1 }
  else w

/-- The `repeat` of R156: the right cell of the pair, the left one, the next row, until it runs off an edge. -/
def Walk.pair (cw : Memory) (cwlen m n : Nat) : Nat → Walk → Walk
  | 0, w => w
  | fuel + 1, w =>
    let w := (w.place cw cwlen m w.col).place cw cwlen m (w.col - 1)
    let row := w.row + w.dir
    if row < 0 ∨ (n : Int) ≤ row then { w with dir := -w.dir }
    else Walk.pair cw cwlen m n fuel { w with row := row }

/-- The `while col > 0` of R156. -/
def Walk.columns (cw : Memory) (cwlen m n : Nat) : Nat → Walk → Walk
  | 0, w => w
  | fuel + 1, w =>
    if 0 < w.col then
      let w := if w.col = 6 then { w with col := 5 } else w
      let w := Walk.pair cw cwlen m n n w
      Walk.columns cw cwlen m n fuel { w with col := w.col - 2 }
    else w

/-- Steps 5 and 6 (R156, R158): from the bottom right corner, moving up. A pair has at most N rows and the grid fewer than
N pairs, so N is enough fuel for both loops. -/
def placeCodewords (cw : Memory) (cwlen m n : Nat) (mat : Matrix) : Walk :=
  Walk.columns cw cwlen m n n { mat := mat, row := (n : Int) - 1, dir := -1, col := (n : Int) - 1, placed := 0 }

/-- Step 1 (R151). -/
def Matrix.blank : Matrix := Vector.replicate 57 (Vector.replicate 57 .unset)

/-- Steps 1 to 4a (R151 to R155). -/
def stampPatterns (v : Nat) : Matrix :=
  (((Matrix.blank.stamp (finderWrites (moduleCount v))).stampUnset (timingWrites (moduleCount v))).stamp
    (alignWrites v)).stamp (reservedWrites v)

/-- Steps 1 to 7 of BUILD m (R159). -/
def buildBySteps (v : Nat) (cw : Memory) (cwlen m : Nat) : Matrix :=
  (placeCodewords cw cwlen m (moduleCount v) (stampPatterns v)).mat.set (moduleCount v - 8) 8 .dark

end Sys2Proof.Machine
end

