-- ==== Sys2Proof/Machine/HostSide.lean ====
section
/-! DEFINITION. The host's side, software around the block (49_host_contract.md), and the pseudo-commands of the assembler
(R68): what command sequence each stands for, the Byte Encoder that makes the payload (R221), the level map (R226), the 1:1
picture (R223). Nothing here is part of a step: these rules "bind the host, not the block". -/
namespace Sys2Proof.Machine

/-- A high surrogate unit (R221). -/
def isHighSurrogate (u : Nat) : Bool := 0xD800 ≤ u && u ≤ 0xDBFF

/-- A low surrogate unit (R221). -/
def isLowSurrogate (u : Nat) : Bool := 0xDC00 ≤ u && u ≤ 0xDFFF

/-- The code point of a surrogate pair (R221). -/
def pairPoint (hi lo : Nat) : Nat := 0x10000 + (hi - 0xD800) * 0x400 + (lo - 0xDC00)

/-- The code points of a string of 16-bit units (R221); none for a string with a lone surrogate, whose bytes are the open
parameter LONE_SURROGATE_BYTES (R222: a model of the host "must refuse others"). -/
def codePoints : List Nat → Option (List Nat)
  | [] => some []
  | [u] => if isHighSurrogate u || isLowSurrogate u then none else some [u]
  | u :: lo :: rest =>
    if isHighSurrogate u then
      if isLowSurrogate lo then (codePoints rest).map (pairPoint u lo :: ·) else none
    else if isLowSurrogate u then none
    else (codePoints (lo :: rest)).map (u :: ·)

/-- The UTF-8 bytes of a code point (R221). -/
def utf8OfPoint (p : Nat) : List Byte :=
  if p < 0x80 then [BitVec.ofNat 8 p]
  else if p < 0x800 then [BitVec.ofNat 8 (0xC0 + p / 0x40), BitVec.ofNat 8 (0x80 + p % 0x40)]
  else if p < 0x10000 then
    [BitVec.ofNat 8 (0xE0 + p / 0x1000), BitVec.ofNat 8 (0x80 + p / 0x40 % 0x40), BitVec.ofNat 8 (0x80 + p % 0x40)]
  else
    [BitVec.ofNat 8 (0xF0 + p / 0x40000), BitVec.ofNat 8 (0x80 + p / 0x1000 % 0x40),
      BitVec.ofNat 8 (0x80 + p / 0x40 % 0x40), BitVec.ofNat 8 (0x80 + p % 0x40)]

/-- The Byte Encoder (R221). -/
def utf8 (units : List Nat) : Option (List Byte) := (codePoints units).map fun ps => ps.flatMap utf8OfPoint

/-- The SETLVL operand of a level string; a missing or unrecognised one falls back to "M" (R226). -/
def levelCode : Option String → Nat
  | some "L" => 1
  | some "M" => 0
  | some "Q" => 3
  | some "H" => 2
  | _ => 0

/-- The pseudo-commands (R68). -/
inductive Pseudo where
  | pload (p : PReg) (cs : List Byte)
  | ibytes (bs : List Byte)
  | istr (units : List Nat)
  | level (name : String)
  | qr (name : String) (units : List Nat)
  deriving DecidableEq, Repr

/-- `ICLR`, then `IPUSH b` for each payload byte (R68, R224). -/
def pushPayload (bs : List Byte) : List Instr := .iclr :: bs.map .ipush

/-- The expansion of a pseudo-command (R68); ISTR and QR are defined only for strings without lone surrogates (R222). -/
def Pseudo.expand : Pseudo → Option (List Instr)
  | .pload p cs => some (.pclr p :: cs.map (.ppush p))
  | .ibytes bs => some (bs.map .ipush)
  | .istr units => (utf8 units).map pushPayload
  | .level name => some [.setlvl (levelCode (some name))]
  | .qr name units => (utf8 units).map fun bs => .setlvl (levelCode (some name)) :: (pushPayload bs ++ [.encode])

/-- The commands of `encodeAndRender` up to ENCODE (R225). -/
def encodeRequest (level : Option String) (units : List Nat) : Option (List Instr) :=
  (utf8 units).map fun bs => .srst :: .setlvl (levelCode level) :: (pushPayload bs ++ [.encode])

/-- The host presents these commands, one after another (R11). -/
def State.withProgram (s : State) (cs : List Instr) : State :=
  { s with host := cs.map (fun i => PortIn.present (Sys2Proof.encode i)) }

/-- Raw pixel (y, x) of the picture with the given margin is black (R223). -/
def rawPixelBlack (s : State) (margin y x : Nat) : Bool :=
  margin ≤ y && y < margin + s.nmod && margin ≤ x && x < margin + s.nmod &&
    s.mat.read (y - margin) (x - margin) == .dark

end Sys2Proof.Machine
end

