-- ==== Sys2Proof/Safety.lean ====
section
/-! DEFINITION. The terms of the claims: what a good state is (R31), what the reset state is (R30), when a command faults
(R237, R239, R242), and the spec's printed tables and formulas as claims need them, written apart from the meanings. -/
namespace Sys2Proof.Machine

/-- The block executes what it is given: it is not in the FAULT state (R241, R253). -/
abbrev State.Running (s : State) : Prop := s.err = 0

/-- A polynomial value: "it is empty or its element 0 is non-zero" (R22). -/
abbrev IsStripped (a : List Byte) : Prop := a.head? ≠ some 0

/-- Every listed index is below n. -/
abbrev Memory.Below (n : Nat) (m : Memory) : Prop := ∀ c ∈ m, c.1 < n

/-- A buffer of n bytes in canonical form. -/
abbrev Memory.Holds (n : Nat) (m : Memory) : Prop := m.wf ∧ m.Below n

/-- VERSION is one of the versions there are (R16). -/
abbrev State.LegalVersion (s : State) : Prop := 1 ≤ s.version.toNat ∧ s.version.toNat ≤ Config.maxVersion

/-- A polynomial register's value: stripped, at most 256 coefficients (R22). -/
abbrev PolyLegal (a : List Byte) : Prop := IsStripped a ∧ a.length ≤ Config.polyMax

/-- Every polynomial register holds a legal value (R22). -/
abbrev State.PolysLegal (s : State) : Prop := ∀ p, PolyLegal (s.poly p)

/-- The invariants "a model may rely on" (R31) that every step keeps, with the canonical form and size of each buffer
(R23 to R26), and ECMD = 0 while no fault is recorded (R14). -/
structure State.Inv (s : State) : Prop where
  version : s.LegalVersion
  poly : s.PolysLegal
  cwlen : s.cwlen.toNat ≤ Config.cwSize
  err : s.err.toNat ≤ 4
  ecmd : s.err = 0 → s.ecmd = 0
  ibuf : s.ibuf.Holds Config.ibufSize
  dbuf : s.dbuf.Holds Config.dbufSize
  ecbuf : s.ecbuf.Holds Config.ecbufSize
  cw : s.cw.Holds Config.cwSize

/-- The reset values, row by row (R30). -/
structure State.AtReset (s : State) : Prop where
  res : s.res = 0
  err : s.err = 0
  ecmd : s.ecmd = 0
  ovf : s.ovf = false
  final : s.final = false
  level : s.level = 0
  version : s.version = 1
  mask : s.mask = 0
  best : s.best = 0
  ilen : s.ilen = 0
  cwlen : s.cwlen = 0
  pena : s.pena = 0
  penb : s.penb = 0
  penc : s.penc = 0
  pen : ∀ m < 8, s.penalty m = 0
  poly : ∀ p, s.poly p = []
  ibuf : ∀ i, s.ibuf.read i = 0
  dbuf : ∀ i, s.dbuf.read i = 0
  ecbuf : ∀ i, s.ecbuf.read i = 0
  cw : ∀ i, s.cw.read i = 0
  mat : ∀ r c, s.mat.read r c = .unset

/-- The numbers that RDCSR accepts (R208). -/
def csrAssigned (n : Nat) : Bool := n ≤ 0x0A || (0x0C ≤ n && n ≤ 0x0E) || (0x10 ≤ n && n ≤ 0x17)

/-- The complete list of operands that are out of range (R239). -/
def State.outOfRange (s : State) : Instr → Prop
  | .setlvl c => 3 < c
  | .setver v => v = 0 ∨ 10 < v
  | .wrd i _ => 273 < i
  | .build m => 7 < m
  | .fmt d => 31 < d
  | .vinf d => 63 < d
  | .rdcsr n => csrAssigned n = false
  | .rdi i => 273 < i
  | .rdd i => 273 < i
  | .rdec i => 223 < i
  | .rdcw i => 345 < i
  | .rdmod row col => 56 < row ∨ 56 < col
  | .pget p i => (s.poly p).length ≤ i
  | _ => False

/-- A polynomial register would hold more than 256 coefficients (R242). -/
def State.overLong (s : State) : Instr → Prop
  | .ppush p _ => (s.poly p).length = 256
  | .pmul _ pa pb => s.poly pa ≠ [] ∧ s.poly pb ≠ [] ∧ 256 < (s.poly pa).length + (s.poly pb).length - 1
  | _ => False

/-- `glog(0)` is formed, cause by cause (R237). -/
def State.formsLogOfZero (s : State) : Instr → Prop
  | .glog n => n = 0
  | .pmul _ pa pb => s.poly pa ≠ [] ∧ s.poly pb ≠ [] ∧ (s.poly pa).length + (s.poly pb).length - 1 ≤ 256 ∧
      (0 ∈ s.poly pa ∨ 0 ∈ s.poly pb)
  | .pmod _ pa pb => s.poly pb = [] ∨ ((s.poly pb).length ≤ (s.poly pa).length ∧ 0 ∈ s.poly pb)
  | _ => False

/-- E satisfies the definition of the EXP table (R80). -/
def IsExpTable (E : Nat → Byte) : Prop :=
  (∀ i ≤ 7, E i = 1#8 <<< i) ∧
    ∀ i, 8 ≤ i → i ≤ 255 → E i = E (i - 4) ^^^ E (i - 5) ^^^ E (i - 6) ^^^ E (i - 8)

/-- The product of two field elements (R88); 0 where a factor is 0, as in any field. -/
def fieldMul (u v : Byte) : Byte :=
  if u = 0 ∨ v = 0 then 0 else gexp ((logEntry u.toNat : Int) + (logEntry v.toNat : Int))

/-- The coefficient of x^k (R90: the constant term stands last). -/
def coeff (a : List Byte) (k : Nat) : Byte := a.reverse.getD k 0

/-- The coefficient of x^k in the product of two polynomials: addition is xor (R88). -/
def productCoeff (a b : List Byte) (k : Nat) : Byte :=
  ((List.range (k + 1)).map fun i => fieldMul (coeff a i) (coeff b (k - i))).foldr (· ^^^ ·) 0

/-- The product of two polynomials over GF(2), bit i being the coefficient of x^i (R187). -/
def clmul (q g : Nat) : Nat :=
  (List.range 18).foldl (fun acc i => if q.testBit i then acc ^^^ (g <<< i) else acc) 0

/-- The column of a level code in the tables that the spec prints in the order L, M, Q, H (R15). -/
def levelColumn (l : BitVec 2) : Nat :=
  match l.toNat with
  | 0 => 1
  | 1 => 0
  | 2 => 3
  | _ => 2

/-- An entry of a table with rows by version and columns L, M, Q, H. -/
def tableEntry (rows : List (List Nat)) (v : Nat) (l : BitVec 2) : Nat := (rows.getD (v - 1) []).getD (levelColumn l) 0

/-- The byte-mode capacities as R113 prints them. -/
def capacityRows : List (List Nat) :=
  [ [17, 14, 11, 7], [32, 26, 20, 14], [53, 42, 32, 24], [78, 62, 46, 34], [106, 84, 60, 44],
    [134, 106, 74, 58], [154, 122, 86, 64], [192, 152, 108, 84], [230, 180, 130, 98], [271, 213, 151, 119] ]

/-- The capacity of (v, level) as R113 prints it. -/
def printedCapacity (v : Nat) (l : BitVec 2) : Nat := tableEntry capacityRows v l

/-- B, the number of blocks, as R131 prints it. -/
def blockCountRows : List (List Nat) :=
  [ [1, 1, 1, 1], [1, 1, 1, 1], [1, 1, 2, 2], [1, 2, 2, 4], [1, 2, 4, 4], [2, 4, 4, 4], [2, 4, 6, 5], [2, 4, 6, 6],
    [2, 5, 8, 8], [4, 5, 8, 8] ]

/-- ecCount as R131 prints it. -/
def ecCountRows : List (List Nat) :=
  [ [7, 10, 13, 17], [10, 16, 22, 28], [15, 26, 18, 22], [20, 18, 26, 16], [26, 24, 18, 22], [18, 16, 24, 28],
    [20, 18, 18, 26], [24, 22, 22, 26], [30, 22, 20, 24], [18, 26, 24, 28] ]

/-- DTOT as R131 prints it. -/
def dtotRows : List (List Nat) :=
  [ [19, 16, 13, 9], [34, 28, 22, 16], [55, 44, 34, 26], [80, 64, 48, 36], [108, 86, 62, 46], [136, 108, 76, 60],
    [156, 124, 88, 66], [194, 154, 110, 86], [232, 182, 132, 100], [274, 216, 154, 122] ]

/-- CTOT as R131 prints it. -/
def ctotRow : List Nat := [26, 44, 70, 100, 134, 172, 196, 242, 292, 346]

/-- CTOT(v) as R131 prints it. -/
def printedCtot (v : Nat) : Nat := ctotRow.getD (v - 1) 0

/-- Bit j of a buffer: byte j div 8, bit 7 - (j mod 8) (R44). -/
def Memory.bitAt (m : Memory) (j : Nat) : Bool := (m.read (j / 8)).toNat.testBit (7 - j % 8)

/-- Bit j of what PACK stores for n = ILEN payload bytes: mode indicator, length indicator, payload, terminator, pad bytes
0xEC and 0x11 in turn (R44, R116, R117). -/
def packedBit (v ilen : Nat) (ibuf : Memory) (j : Nat) : Bool :=
  let head := 4 + lenbits v
  let body := head + 8 * min ilen 274
  if j < 4 then (0b0100).testBit (3 - j)
  else if j < head then ilen.testBit (head - 1 - j)
  else if j < body then ibuf.bitAt (j - head)
  else if j < body + 4 then false
  else (if (j - (body + 4)) / 8 % 2 = 0 then 0xEC else 0x11).testBit (7 - (j - (body + 4)) % 8)

/-- `data[b]` (R131). -/
def blockData (v : Nat) (l : BitVec 2) (b : Nat) : Nat := ((blocks v l).map RSBlock.data).getD b 0

/-- `off[b] = data[0] + ... + data[b-1]` (R131). -/
def blockOffset (v : Nat) (l : BitVec 2) (b : Nat) : Nat := (((blocks v l).take b).map RSBlock.data).sum

/-- How many data codewords are emitted before codeword i of block b: i columns, cut where a block is exhausted, and the
blocks before b that have a codeword i (R136). -/
def dataPosition (v : Nat) (l : BitVec 2) (b i : Nat) : Nat :=
  ((blocks v l).map fun k => min i k.data).sum + ((blocks v l).take b).countP fun k => i < k.data

/-- The coefficients of the generator polynomials as R107 prints them, with the small ones. -/
def printedGenerators : List (Nat × List Byte) :=
  [ (0, [0x01]), (1, [0x01, 0x01]), (2, [0x01, 0x03, 0x02]), (3, [0x01, 0x07, 0x0E, 0x08]),
    (7, [0x01, 0x7F, 0x7A, 0x9A, 0xA4, 0x0B, 0x44, 0x75]),
    (10, [0x01, 0xD8, 0xC2, 0x9F, 0x6F, 0xC7, 0x5E, 0x5F, 0x71, 0x9D, 0xC1]),
    (13, [0x01, 0x89, 0x49, 0xE3, 0x11, 0xB1, 0x11, 0x34, 0x0D, 0x2E, 0x2B, 0x53, 0x84, 0x78]),
    (15, [0x01, 0x1D, 0xC4, 0x6F, 0xA3, 0x70, 0x4A, 0x0A, 0x69, 0x69, 0x8B, 0x84, 0x97, 0x20, 0x86, 0x1A]),
    (16, [0x01, 0x3B, 0x0D, 0x68, 0xBD, 0x44, 0xD1, 0x1E, 0x08, 0xA3, 0x41, 0x29, 0xE5, 0x62, 0x32, 0x24, 0x3B]),
    (17, [0x01, 0x77, 0x42, 0x53, 0x78, 0x77, 0x16, 0xC5, 0x53, 0xF9, 0x29, 0x8F, 0x86, 0x55, 0x35, 0x7D, 0x63, 0x4F]),
    (18, [0x01, 0xEF, 0xFB, 0xB7, 0x71, 0x95, 0xAF, 0xC7, 0xD7, 0xF0, 0xDC, 0x49, 0x52, 0xAD, 0x4B, 0x20, 0x43, 0xD9,
          0x92]),
    (20, [0x01, 0x98, 0xB9, 0xF0, 0x05, 0x6F, 0x63, 0x06, 0xDC, 0x70, 0x96, 0x45, 0x24, 0xBB, 0x16, 0xE4, 0xC6, 0x79,
          0x79, 0xA5, 0xAE]),
    (22, [0x01, 0x59, 0xB3, 0x83, 0xB0, 0xB6, 0xF4, 0x13, 0xBD, 0x45, 0x28, 0x1C, 0x89, 0x1D, 0x7B, 0x43, 0xFD, 0x56,
          0xDA, 0xE6, 0x1A, 0x91, 0xF5]),
    (24, [0x01, 0x7A, 0x76, 0xA9, 0x46, 0xB2, 0xED, 0xD8, 0x66, 0x73, 0x96, 0xE5, 0x49, 0x82, 0x48, 0x3D, 0x2B, 0xCE,
          0x01, 0xED, 0xF7, 0x7F, 0xD9, 0x90, 0x75]),
    (26, [0x01, 0xF6, 0x33, 0xB7, 0x04, 0x88, 0x62, 0xC7, 0x98, 0x4D, 0x38, 0xCE, 0x18, 0x91, 0x28, 0xD1, 0x75, 0xE9,
          0x2A, 0x87, 0x44, 0x46, 0x90, 0x92, 0x4D, 0x2B, 0x5E]),
    (28, [0x01, 0xFC, 0x09, 0x1C, 0x0D, 0x12, 0xFB, 0xD0, 0x96, 0x67, 0xAE, 0x64, 0x29, 0xA7, 0x0C, 0xF7, 0x38, 0x75,
          0x77, 0xE9, 0x7F, 0xB5, 0x64, 0x79, 0x93, 0xB0, 0x4A, 0x3A, 0xC5]),
    (30, [0x01, 0xD4, 0xF6, 0x4D, 0x49, 0xC3, 0xC0, 0x4B, 0x62, 0x05, 0x46, 0x67, 0xB1, 0x16, 0xD9, 0x8A, 0x33, 0xB5,
          0xF6, 0x48, 0x19, 0x12, 0x2E, 0xE4, 0x4A, 0xD8, 0xC3, 0x0B, 0x6A, 0x82, 0x96]) ]

/-- The format words as R189 prints them, level codes 0 to 3, mask indices 0 to 7. -/
def printedFormatWords : List Nat :=
  [ 0x5412, 0x5125, 0x5E7C, 0x5B4B, 0x45F9, 0x40CE, 0x4F97, 0x4AA0, 0x77C4, 0x72F3, 0x7DAA, 0x789D, 0x662F, 0x6318,
    0x6C41, 0x6976, 0x1689, 0x13BE, 0x1CE7, 0x19D0, 0x0762, 0x0255, 0x0D0C, 0x083B, 0x355F, 0x3068, 0x3F31, 0x3A06,
    0x24B4, 0x2183, 0x2EDA, 0x2BED ]

/-- What an ENCODE leaves that R32 names: VERSION, OVF, the bytes the stages wrote, CWLEN, the penalties, BEST, MASK, RES,
MAT, FINAL. -/
structure State.SameOutcome (s t : State) : Prop where
  version : s.version = t.version
  ovf : s.ovf = t.ovf
  dbuf : ∀ i < s.dtot, s.dbuf.read i = t.dbuf.read i
  ecbuf : ∀ i < (blocks s.version.toNat s.level).length * ecCountOf s.version.toNat s.level,
    s.ecbuf.read i = t.ecbuf.read i
  cw : ∀ i < s.cwlen.toNat, s.cw.read i = t.cw.read i
  cwlen : s.cwlen = t.cwlen
  pena : s.pena = t.pena
  penb : s.penb = t.penb
  penc : s.penc = t.penc
  pen : s.pen = t.pen
  best : s.best = t.best
  mask : s.mask = t.mask
  res : s.res = t.res
  mat : s.mat = t.mat
  final : s.final = t.final

/-- The register that RDCSR number n reads, number by number (R21, R208), outside the FAULT state, where STATUS.FAULT is 0
(R13). -/
def State.csrValues (s : State) : List (Nat × Word) :=
  [ (0x00, word ((if s.final then 4 else 0) + (if s.ovf then 2 else 0))), (0x01, 0), (0x02, s.ecmd), (0x03, zext s.level),
    (0x04, zext s.version), (0x05, word (4 * s.version.toNat + 17)), (0x06, zext s.mask), (0x07, zext s.best),
    (0x08, zext s.ilen), (0x09, word (tableEntry dtotRows s.version.toNat s.level)), (0x0A, zext s.cwlen),
    (0x0C, s.pena), (0x0D, s.penb), (0x0E, s.penc), (0x10, s.penalty 0), (0x11, s.penalty 1), (0x12, s.penalty 2),
    (0x13, s.penalty 3), (0x14, s.penalty 4), (0x15, s.penalty 5), (0x16, s.penalty 6), (0x17, s.penalty 7) ]

/-- The commands whose rule says `RES <- ...` (R12), SRST's reset of RES apart. -/
def writesRes : Instr → Bool
  | .rdcsr _ | .gexp _ | .glog _ | .rdexp _ | .plen _ | .pget _ _ | .score | .eval | .encode | .fmt _ | .vinf _
  | .rdi _ | .rdd _ | .rdec _ | .rdcw _ | .rdmod _ _ => true
  | _ => false

/-- The polynomial register a command writes (R22). -/
def destPoly : Instr → Option PReg
  | .pclr p | .ppush p _ | .pmul p _ _ | .pmod p _ _ | .pgen p _ => some p
  | _ => none

/-- The read commands of R48. -/
def isRead : Instr → Bool
  | .rdi _ | .rdd _ | .rdec _ | .rdcw _ | .rdmod _ _ | .rdexp _ | .rdcsr _ | .plen _ | .pget _ _ => true
  | _ => false

/-- The offsets (dr, dc) with dr, dc in -1..1 and not both 0 (R171). -/
def neighbourOffsets : List (Int × Int) := [(-1, -1), (-1, 0), (-1, 1), (0, -1), (0, 1), (1, -1), (1, 0), (1, 1)]

/-- `same(r, c)`: the cells (r+dr, c+dc) inside the N × N grid that have the colour of (r, c) (R171). -/
def neighboursAlike (n : Nat) (m : Matrix) (r c : Nat) : Nat :=
  neighbourOffsets.countP fun d =>
    0 ≤ (r : Int) + d.1 ∧ (r : Int) + d.1 < n ∧ 0 ≤ (c : Int) + d.2 ∧ (c : Int) + d.2 < n ∧
      m.read ((r : Int) + d.1).toNat ((c : Int) + d.2).toNat = m.read r c

/-- Rule A: 3 + (same - 5) for every cell with same at least 5 (R171). -/
def penaltyA (n : Nat) (m : Matrix) : Nat :=
  ∑ r ∈ Finset.range n, ∑ c ∈ Finset.range n,
    if 5 ≤ neighboursAlike n m r c then 3 + (neighboursAlike n m r c - 5) else 0

/-- The cells of the pattern of rule B that are dark: 0, 2, 3, 4 and 6 of seven; the others are light (R172). -/
def ruleBColour (k : Nat) : Module := if k = 1 ∨ k = 5 then .light else .dark

/-- Rule B: 40 for every match in a row and for every match in a column (R172). -/
def penaltyB (n : Nat) (m : Matrix) : Nat :=
  40 * ((Finset.range n ×ˢ Finset.range (n - 6)).filter fun p =>
      ∀ k ∈ Finset.range 7, m.read p.1 (p.2 + k) = ruleBColour k).card +
    40 * ((Finset.range n ×ˢ Finset.range (n - 6)).filter fun p =>
      ∀ k ∈ Finset.range 7, m.read (p.2 + k) p.1 = ruleBColour k).card

/-- The dark cells of the N × N grid (R173). -/
def darkCells (n : Nat) (m : Matrix) : Nat :=
  ((Finset.range n ×ˢ Finset.range n).filter fun p => m.read p.1 p.2 = .dark).card

/-- Rule C (R173). -/
def penaltyC (n : Nat) (m : Matrix) : Nat :=
  10 * (((100 * (darkCells n m : Int) - 50 * ((n : Int) * n)).natAbs) / (5 * (n * n)))

/-- The version words that the block writes, as R192 prints them, for versions 7 to 10. -/
def printedVersionWords : List Nat := [0x07C94, 0x085BC, 0x09A99, 0x0A4D3]

/-- The number of data cells by version, as R161 prints them. -/
def dataCellRow : List Nat := [208, 359, 567, 807, 1079, 1383, 1568, 1936, 2336, 2768]

end Sys2Proof.Machine
end

