-- ==== Sys2Proof/Certificates/Slice0/Obligations.lean ====
section
/-! DEFINITION. The statements about the model, from the numbered rules of the spec. "Running" is "not in the FAULT state".
Where a statement gives the next state as `{ s with … }`, it says with it that nothing else changes. -/
open Sys2Proof Sys2Proof.Machine

/-! ## Words and commands -/

/-- R61, R62, R63: no bit of an encoding is dropped; each well-formed command comes back from its word. -/
def Obligations.DecodeEncodeRoundTrip : Prop :=
  ∀ i : Instr, i.wf = true → decode (encode i) = .ok i

/-- R61, R64: a word that decodes is the word of a well-formed command, so each legal word has one meaning. -/
def Obligations.DecodedWordIsItsEncoding : Prop :=
  ∀ (w : Word) (i : Instr), decode w = .ok i → i.wf = true ∧ encode i = w

/-- R61: "a word W is an instance of a row exactly when W and mask = match"; those are the words that decode. -/
def Obligations.DecodeAcceptsExactlyTheTableRows : Prop :=
  ∀ w : Word, (∃ i, decode w = .ok i) ↔ ∃ r ∈ opcodeRows, w &&& r.mask = r.fixed

/-- R61: "The 35 masks and matches are pairwise disjoint: no word is an instance of two rows". -/
def Obligations.NoWordMatchesTwoTableRows : Prop :=
  opcodeRows.length = 35 ∧
    ∀ w : Word, ∀ r ∈ opcodeRows, ∀ r' ∈ opcodeRows, w &&& r.mask = r.fixed → w &&& r'.mask = r'.fixed → r = r'

/-- The encoding examples of R63. -/
def Obligations.EncodingExamplesDecode : Prop :=
  decode 0x1000FFFF = .ok (.gexp (-1)) ∧ decode 0x11000002 = .ok (.glog 2) ∧
  decode 0x2140001D = .ok (.ppush .p1 0x1D) ∧ decode 0x22840000 = .ok (.pmul .p2 .p0 .p1) ∧
  decode 0x24C0000A = .ok (.pgen .p3 10) ∧ decode 0x340005AB = .ok (.wrd 5 0xAB) ∧
  decode 0x44000003 = .ok (.build 3) ∧ decode 0x54000D08 = .ok (.rdmod 13 8) ∧ decode 0x49000000 = .ok .encode

/-! ## Steps, faults, reset -/

/-- R52: an accepted word that decodes is one step of the command it decodes to. That the host's word stands at the head of a
list in State is the model's form of the command port (log entry 1). -/
def Obligations.StepRunsTheDecodedCommand : Prop :=
  ∀ (s : State) (w : Word) (rest : List PortIn) (i : Instr), s.host = PortIn.present w :: rest → decode w = .ok i →
    step s = exec i { s with host := rest }

/-- R64, R238: outside the FAULT state a word that is no instance of a table row raises E_ILLEGAL with ECMD = W and changes
nothing else; every other word is one of the 35 commands. -/
def Obligations.IllegalWordRaisesIllegal : Prop :=
  ∀ (s : State) (w : Word) (rest : List PortIn), s.host = PortIn.present w :: rest → s.Running →
    ((∀ r ∈ opcodeRows, w &&& r.mask ≠ r.fixed) → step s = .next { s with host := rest, err := 2, ecmd := w }) ∧
    ((∃ r ∈ opcodeRows, w &&& r.mask = r.fixed) → ∃ i, decode w = .ok i ∧ step s = exec i { s with host := rest })

/-- R241: in the FAULT state every word but SRST, legal or not, is discarded; the state and the outputs stay. -/
def Obligations.FaultStateDiscardsEveryWordButSrst : Prop :=
  ∀ (s : State) (w : Word) (rest : List PortIn), s.host = PortIn.present w :: rest → s.err ≠ 0 → w ≠ 0x01000000 →
    step s = .next { s with host := rest } ∧ State.outputs { s with host := rest } = s.outputs ∧
      ∀ i : Instr, i ≠ .srst → exec i s = .next s

/-- R206: SRST gives every piece of state its reset value, in every state, the FAULT state included. -/
def Obligations.SrstResetsEverything : Prop :=
  decode 0x01000000 = .ok .srst ∧
    ∀ s : State, ∃ t, exec .srst s = .next t ∧ t.AtReset ∧ t.host = s.host

/-- R260: the `rst` input makes the transition of SRST, no word is accepted and `cmd_ready` is low; with neither `rst` nor
`cmd_valid` nothing happens, and nothing happens when the host drives nothing more (the model's form of the ports, log
entry 1). -/
def Obligations.ResetInputResetsAndIdlePortsDoNothing : Prop :=
  ∀ s : State,
    (∀ (p : PortIn) (rest : List PortIn), s.host = p :: rest →
      (p.rst = true → cmdReady p = false ∧ ∃ t, step s = .next t ∧ t.AtReset ∧ t.host = rest ∧
        step s = exec .srst { s with host := rest }) ∧
      (p.rst = false → p.cmdValid = false → step s = .next { s with host := rest })) ∧
    (s.host = [] → step s = .next s)

/-- R30: the state after reset. -/
def Obligations.ResetStateIsTheTable : Prop :=
  State.reset.AtReset ∧ State.reset.nmod = 21 ∧ State.reset.dtot = 16 ∧ State.reset.faulted = false

/-- The invariants of R31 hold at reset. -/
def Obligations.ResetStateMeetsTheInvariant : Prop := State.reset.Inv

/-- R31: every step, from every state that meets the invariants, keeps them: VERSION is 1 to 10, each polynomial register is
stripped with at most 256 coefficients, CWLEN ≤ 346, ERR is a code, ECMD is 0 while no fault is recorded, and each buffer
keeps its size and its canonical form. -/
def Obligations.EveryStepKeepsTheInvariant : Prop :=
  ∀ s t : State, s.Inv → step s = .next t → t.Inv

/-- R241, R65: the three outcomes. A well-formed command other than SRST is discarded in the FAULT state, else it completes
with ERR and ECMD as they were, else it faults and only ERR and ECMD are written; it faults exactly when an operand is out of
range (R239), a polynomial would be too long (R242) or glog(0) is formed (R237). A step does the same for the presented word,
where a word that does not decode faults too; SRST and the `rst` input reset, and idle ports change nothing. That a fault is
a next state is R241's own wording (log entry 5); the ports are in the model's form (log entry 1). -/
def Obligations.EveryCommandAndStepHasOneOfTheThreeOutcomes : Prop :=
  (∀ (i : Instr) (s : State), i.wf = true → i ≠ .srst → ∃ t, exec i s = .next t ∧
    (s.err ≠ 0 → t = s) ∧
    (s.err = 0 → (t.err = 0 ∧ t.ecmd = s.ecmd) ∨
      ((t.err = 1 ∨ t.err = 3 ∨ t.err = 4) ∧ t = { s with err := t.err, ecmd := encode i })) ∧
    (s.err = 0 → s.PolysLegal → (t.err = 0 ↔ ¬s.outOfRange i ∧ ¬s.overLong i ∧ ¬s.formsLogOfZero i))) ∧
  (∀ s : State, s.host = [] → step s = .next s) ∧
  ∀ (s : State) (p : PortIn) (rest : List PortIn), s.host = p :: rest → ∃ t, step s = .next t ∧ t.host = rest ∧
    (p.rst = true → t.AtReset) ∧
    (p.rst = false → p.cmdValid = false → t = { s with host := rest }) ∧
    (p.rst = false → p.cmdValid = true → p.cmdWord = 0x01000000 → t.AtReset) ∧
    (p.rst = false → p.cmdValid = true → p.cmdWord ≠ 0x01000000 →
      (s.err ≠ 0 → t = { s with host := rest }) ∧
      (s.err = 0 → (t.err = 0 ∧ t.ecmd = s.ecmd ∧ ∃ i, decode p.cmdWord = .ok i) ∨
        ((t.err = 1 ∨ t.err = 2 ∨ t.err = 3 ∨ t.err = 4) ∧
          t = { s with host := rest, err := t.err, ecmd := p.cmdWord })) ∧
      (s.err = 0 → s.PolysLegal → (t.err = 0 ↔ ∃ i, decode p.cmdWord = .ok i ∧
        ¬s.outOfRange i ∧ ¬s.overLong i ∧ ¬s.formsLogOfZero i)))

/-- R244: a step that leaves the FAULT state is the reset input or SRST, and leaves everything at its reset value. -/
def Obligations.OnlyResetAndSrstLeaveTheFaultState : Prop :=
  ∀ s t : State, s.err ≠ 0 → step s = .next t → t.err = 0 →
    t.AtReset ∧ ∃ p rest, s.host = p :: rest ∧ (p.rst = true ∨ (p.cmdValid = true ∧ p.cmdWord = 0x01000000))

/-- R240, R248: a command that faults writes ERR and ECMD and nothing else; its code is 1, 3 or 4 and ECMD is its word. One
that completes records nothing. -/
def Obligations.FaultingCommandChangesOnlyErrAndEcmd : Prop :=
  ∀ (i : Instr) (s t : State), s.Running → i ≠ .srst → exec i s = .next t →
    (t.err = 0 ∧ t.ecmd = s.ecmd) ∨
      ((t.err = 1 ∨ t.err = 3 ∨ t.err = 4) ∧ t = { s with err := t.err, ecmd := encode i })

/-- R239: E_RANGE is raised by exactly the operands of the list. -/
def Obligations.RangeFaultExactlyForTheListedOperands : Prop :=
  ∀ (i : Instr) (s t : State), s.Running → i.wf = true → exec i s = .next t → (t.err = 3 ↔ s.outOfRange i)

/-- R242: E_PLEN is raised by exactly the commands whose result would be longer than 256 coefficients. -/
def Obligations.LengthFaultExactlyWhenOver256 : Prop :=
  ∀ (i : Instr) (s t : State), s.Running → s.PolysLegal → i.wf = true → exec i s = .next t → (t.err = 4 ↔ s.overLong i)

/-- R237: E_DOMAIN is raised in exactly the four cases listed; no stage command raises it. -/
def Obligations.DomainFaultExactlyInTheFourCases : Prop :=
  ∀ (i : Instr) (s t : State), s.Running → s.PolysLegal → i.wf = true → exec i s = .next t →
    (t.err = 1 ↔ s.formsLogOfZero i)

/-! ## Who writes what -/

/-- R12: RES is written only where a rule says so; every other command leaves it, also a faulting one. -/
def Obligations.ResIsWrittenOnlyByItsWriters : Prop :=
  ∀ (i : Instr) (s t : State), exec i s = .next t → i ≠ .srst → (writesRes i = false ∨ t.err ≠ 0) → t.res = s.res

/-- R15 to R19: LEVEL, VERSION, MASK, BEST, ILEN and CWLEN are written only by their writers (SRST resets them), and what
the host drives by none. -/
def Obligations.SymbolRegistersAreWrittenOnlyByTheirWriters : Prop :=
  ∀ (i : Instr) (s t : State), exec i s = .next t → i ≠ .srst →
    ((∀ c, i ≠ .setlvl c) → t.level = s.level) ∧
    ((∀ v, i ≠ .setver v) → i ≠ .selver → i ≠ .encode → t.version = s.version) ∧
    ((∀ m, i ≠ .build m) → i ≠ .eval → i ≠ .final → i ≠ .encode → t.mask = s.mask) ∧
    (i ≠ .eval → i ≠ .encode → t.best = s.best) ∧
    (i ≠ .iclr → (∀ b, i ≠ .ipush b) → t.ilen = s.ilen) ∧
    (i ≠ .ilv → i ≠ .encode → t.cwlen = s.cwlen) ∧
    t.host = s.host

/-- R13, R20: OVF, FINAL, PENA to PENC and PEN0 to PEN7 are written only by their writers (SRST resets them). -/
def Obligations.FlagsAndPenaltiesAreWrittenOnlyByTheirWriters : Prop :=
  ∀ (i : Instr) (s t : State), exec i s = .next t → i ≠ .srst →
    (i ≠ .selver → i ≠ .pack → i ≠ .encode → t.ovf = s.ovf) ∧
    ((∀ m, i ≠ .build m) → i ≠ .eval → i ≠ .wrfmt → i ≠ .final → i ≠ .encode → t.final = s.final) ∧
    (i ≠ .score → i ≠ .eval → i ≠ .encode → t.pena = s.pena ∧ t.penb = s.penb ∧ t.penc = s.penc) ∧
    (i ≠ .eval → i ≠ .encode → t.pen = s.pen)

/-- R22 to R27, R40: each polynomial register, buffer and the matrix is written only by its writers (SRST resets them); no
command reaches one space through another's index. -/
def Obligations.StorageIsWrittenOnlyByItsWriters : Prop :=
  ∀ (i : Instr) (s t : State), exec i s = .next t → i ≠ .srst →
    (∀ p, destPoly i ≠ some p → t.poly p = s.poly p) ∧
    ((∀ b, i ≠ .ipush b) → t.ibuf = s.ibuf) ∧
    ((∀ k b, i ≠ .wrd k b) → i ≠ .pack → i ≠ .encode → t.dbuf = s.dbuf) ∧
    (i ≠ .rsenc → i ≠ .encode → t.ecbuf = s.ecbuf) ∧
    (i ≠ .ilv → i ≠ .encode → t.cw = s.cw) ∧
    ((∀ m, i ≠ .build m) → i ≠ .eval → i ≠ .wrfmt → i ≠ .final → i ≠ .encode → t.mat = s.mat)

/-- R48: a read command changes nothing but RES, and repeated it gives the same again. -/
def Obligations.ReadCommandsHaveNoSideEffect : Prop :=
  ∀ (i : Instr) (s t : State), isRead i = true → exec i s = .next t → t.err = 0 →
    t = { s with res := t.res } ∧ exec i t = .next t

/-! ## System and readback commands -/

/-- R205: NOP changes nothing. -/
def Obligations.NopChangesNothing : Prop :=
  decode 0x00000000 = .ok .nop ∧ ∀ s : State, exec .nop s = .next s

/-- R208, R21: RDCSR n gives the register numbered n, zero-extended, and raises E_RANGE for an unassigned number. -/
def Obligations.RdcsrReadsTheNumberedRegister : Prop :=
  ∀ s : State, s.Running → s.LegalVersion →
    (∀ e ∈ s.csrValues, exec (.rdcsr e.1) s = .next { s with res := e.2 }) ∧
    (∀ n < 256, csrAssigned n = true ↔ n ∈ s.csrValues.map Prod.fst) ∧
    ∀ n < 256, decode (word (0x02000000 + n)) = .ok (.rdcsr n) ∧
      (csrAssigned n = false → exec (.rdcsr n) s = .next { s with err := 3, ecmd := word (0x02000000 + n) })

/-- R209 to R212: a byte buffer is read at the index, whatever ILEN, DTOT or CWLEN is; an index past its end raises E_RANGE. -/
def Obligations.BufferReadbackGivesTheByte : Prop :=
  ∀ (s : State) (k : Nat), s.Running → k < 512 →
    (decode (word (0x50000000 + k)) = .ok (.rdi k) ∧
      (k ≤ 273 → exec (.rdi k) s = .next { s with res := zext (s.ibuf.read k) }) ∧
      (273 < k → exec (.rdi k) s = .next { s with err := 3, ecmd := word (0x50000000 + k) })) ∧
    (decode (word (0x51000000 + k)) = .ok (.rdd k) ∧
      (k ≤ 273 → exec (.rdd k) s = .next { s with res := zext (s.dbuf.read k) }) ∧
      (273 < k → exec (.rdd k) s = .next { s with err := 3, ecmd := word (0x51000000 + k) })) ∧
    (decode (word (0x52000000 + k)) = .ok (.rdec k) ∧
      (k ≤ 223 → exec (.rdec k) s = .next { s with res := zext (s.ecbuf.read k) }) ∧
      (223 < k → exec (.rdec k) s = .next { s with err := 3, ecmd := word (0x52000000 + k) })) ∧
    (decode (word (0x53000000 + k)) = .ok (.rdcw k) ∧
      (k ≤ 345 → exec (.rdcw k) s = .next { s with res := zext (s.cw.read k) }) ∧
      (345 < k → exec (.rdcw k) s = .next { s with err := 3, ecmd := word (0x53000000 + k) }))

/-- R213: RDMOD gives 0 for unset, 1 for light, 2 for dark; the bound is the storage bound 56. -/
def Obligations.RdmodGivesTheCellCode : Prop :=
  ∀ (s : State) (r c : Nat), s.Running → r < 64 → c < 64 →
    decode (word (0x54000000 + r * 256 + c)) = .ok (.rdmod r c) ∧
    (r ≤ 56 → c ≤ 56 →
      (s.mat.read r c = .unset → exec (.rdmod r c) s = .next { s with res := 0 }) ∧
      (s.mat.read r c = .light → exec (.rdmod r c) s = .next { s with res := 1 }) ∧
      (s.mat.read r c = .dark → exec (.rdmod r c) s = .next { s with res := 2 })) ∧
    (56 < r ∨ 56 < c → exec (.rdmod r c) s = .next { s with err := 3, ecmd := word (0x54000000 + r * 256 + c) })

/-! ## Galois field -/

/-- R82: facts of every table that satisfies the definition of EXP (R80): EXP[8] = 0x1D and the recurrence is multiplication
by x modulo 0x11D; EXP[0..254] holds every byte 1..255 once; EXP[255] = EXP[0] = 1; no entry is 0; LOG is the inverse. -/
def Obligations.ExpTableFacts : Prop :=
  ∀ E : Nat → Byte, IsExpTable E →
    E 8 = 0x1D ∧ (∀ i < 255, E (i + 1) = (E i <<< 1) ^^^ (if (E i).msb then 0x1D else 0)) ∧
    (∀ v : Byte, v ≠ 0 → ∃ i ≤ 254, E i = v ∧ ∀ j ≤ 254, E j = v → j = i) ∧
    E 0 = 1 ∧ E 255 = 1 ∧ (∀ i ≤ 255, E i ≠ 0) ∧
    (∀ v : Byte, v ≠ 0 → E (logEntry v.toNat) = v) ∧ ∀ i ≤ 254, logEntry (E i).toNat = i

/-- R83, R85, R87: GEXP n gives EXP[n mod 255] with the mathematical mod, for every signed 16-bit n; RDEXP i gives EXP[i]
with no wrap. -/
def Obligations.GexpAndRdexpReadTheExpTable : Prop :=
  ∀ E : Nat → Byte, IsExpTable E → ∀ s : State, s.Running →
    (∀ n : Int, -32768 ≤ n → n ≤ 32767 → decode (word (0x10000000 + (n % 65536).toNat)) = .ok (.gexp n) ∧
      exec (.gexp n) s = .next { s with res := zext (E (n % 255).toNat) }) ∧
    ∀ k ≤ 255, decode (word (0x12000000 + k)) = .ok (.rdexp k) ∧
      exec (.rdexp k) s = .next { s with res := zext (E k) }

/-- R81, R84, R86: GLOG n gives the one exponent 0..254 whose EXP entry is n, and raises E_DOMAIN for 0. -/
def Obligations.GlogInvertsExpAndFaultsAtZero : Prop :=
  ∀ E : Nat → Byte, IsExpTable E → ∀ s : State, s.Running →
    (∀ n : Byte, decode (word (0x11000000 + n.toNat)) = .ok (.glog n)) ∧
    exec (.glog 0) s = .next { s with err := 1, ecmd := 0x11000000 } ∧
    ∀ n : Byte, n ≠ 0 → ∃ k ≤ 254, E k = n ∧ (∀ j ≤ 254, E j = n → j = k) ∧
      exec (.glog n) s = .next { s with res := word k }

/-! ## Polynomials -/

/-- R99, R110: PCLR p empties P[p]; ICLR sets ILEN to 0 and leaves the bytes of IBUF. -/
def Obligations.PclrAndIclrClear : Prop :=
  ∀ s : State, s.Running →
    (∀ p : PReg, decode (word (0x20000000 + p.number * 2 ^ 22)) = .ok (.pclr p) ∧
      exec (.pclr p) s = .next (s.setPoly p [])) ∧
    decode 0x30000000 = .ok .iclr ∧ exec .iclr s = .next { s with ilen := 0 }

/-- R100: PPUSH appends a new constant term; a 0 pushed onto an empty register leaves it empty; a full register raises
E_PLEN. -/
def Obligations.PpushAppendsTheConstantTerm : Prop :=
  ∀ (s : State) (p : PReg) (c : Byte), s.Running → s.PolysLegal →
    decode (word (0x21000000 + p.number * 2 ^ 22 + c.toNat)) = .ok (.ppush p c) ∧
    ((s.poly p).length < 256 →
      exec (.ppush p c) s = .next (s.setPoly p (if s.poly p = [] ∧ c = 0 then [] else s.poly p ++ [c]))) ∧
    ((s.poly p).length = 256 →
      exec (.ppush p c) s =
        .next { s with err := 4, ecmd := word (0x21000000 + p.number * 2 ^ 22 + c.toNat) })

/-- R94, R95, R101, R106: PMUL leaves the product of the polynomials in P[pd], of length len(a) + len(b) - 1, when every
coefficient is non-zero; the empty result for an empty operand; E_PLEN when the product is too long, before E_DOMAIN for a
zero coefficient. The registers may be the same. -/
def Obligations.PmulLeavesTheProduct : Prop :=
  ∀ (s : State) (pd pa pb : PReg), s.Running → s.PolysLegal →
    decode (word (0x22000000 + pd.number * 2 ^ 22 + pa.number * 2 ^ 20 + pb.number * 2 ^ 18)) = .ok (.pmul pd pa pb) ∧
    (s.poly pa = [] ∨ s.poly pb = [] → exec (.pmul pd pa pb) s = .next (s.setPoly pd [])) ∧
    (s.poly pa ≠ [] → s.poly pb ≠ [] → 256 < (s.poly pa).length + (s.poly pb).length - 1 →
      exec (.pmul pd pa pb) s = .next { s with err := 4, ecmd := encode (.pmul pd pa pb) }) ∧
    (s.poly pa ≠ [] → s.poly pb ≠ [] → (s.poly pa).length + (s.poly pb).length - 1 ≤ 256 →
      (0 ∈ s.poly pa ∨ 0 ∈ s.poly pb →
        exec (.pmul pd pa pb) s = .next { s with err := 1, ecmd := encode (.pmul pd pa pb) }) ∧
      (0 ∉ s.poly pa → 0 ∉ s.poly pb →
        ∃ out, exec (.pmul pd pa pb) s = .next (s.setPoly pd out) ∧
          out.length = (s.poly pa).length + (s.poly pb).length - 1 ∧ IsStripped out ∧
          ∀ k, coeff out k = productCoeff (s.poly pa) (s.poly pb) k))

/-- R96, R97, R102: PMOD leaves the remainder: stripped, shorter than the divisor, the dividend being divisor times some q
plus it; a shorter dividend is copied; an empty divisor, or a zero coefficient in one that a pass uses, raises E_DOMAIN. -/
def Obligations.PmodLeavesTheRemainder : Prop :=
  ∀ (s : State) (pd pa pb : PReg), s.Running → s.PolysLegal →
    decode (word (0x23000000 + pd.number * 2 ^ 22 + pa.number * 2 ^ 20 + pb.number * 2 ^ 18)) = .ok (.pmod pd pa pb) ∧
    (s.poly pb = [] → exec (.pmod pd pa pb) s = .next { s with err := 1, ecmd := encode (.pmod pd pa pb) }) ∧
    ((s.poly pa).length < (s.poly pb).length → exec (.pmod pd pa pb) s = .next (s.setPoly pd (s.poly pa))) ∧
    ((s.poly pb).length ≤ (s.poly pa).length → 0 ∈ s.poly pb →
      exec (.pmod pd pa pb) s = .next { s with err := 1, ecmd := encode (.pmod pd pa pb) }) ∧
    (s.poly pb ≠ [] → 0 ∉ s.poly pb →
      ∃ r q, exec (.pmod pd pa pb) s = .next (s.setPoly pd r) ∧ IsStripped r ∧ r.length < (s.poly pb).length ∧
        ∀ k, coeff (s.poly pa) k = productCoeff q (s.poly pb) k ^^^ coeff r k)

/-- R98, R103: PGEN p, n never faults for n in 0..255 and leaves the product of [1, gexp(i)] for i < n: length n + 1, leading
coefficient 1, no zero coefficient up to n = 254. -/
def Obligations.PgenLeavesTheGeneratorPolynomial : Prop :=
  ∃ G : Nat → List Byte, G 0 = [1] ∧
    (∀ n < 255, ∀ k, coeff (G (n + 1)) k = productCoeff (G n) [1, gexp (n : Int)] k) ∧
    (∀ n ≤ 255, (G n).length = n + 1 ∧ (G n).head? = some 1 ∧ (n < 255 → 0 ∉ G n)) ∧
    ∀ (s : State) (p : PReg) (n : Nat), s.Running → n ≤ 255 →
      decode (word (0x24000000 + p.number * 2 ^ 22 + n)) = .ok (.pgen p n) ∧
      exec (.pgen p n) s = .next (s.setPoly p (G n))

/-- R107: the generator polynomials as printed, for the thirteen EC lengths and the small ones. -/
def Obligations.PgenGivesThePrintedGenerators : Prop :=
  ∀ (s : State) (p : PReg), s.Running → ∀ e ∈ printedGenerators, exec (.pgen p e.1) s = .next (s.setPoly p e.2)

/-- R104, R105: PLEN gives the length; PGET gives coefficient i, the leading one at 0, and raises E_RANGE from the length
up. -/
def Obligations.PlenAndPgetReadThePolynomial : Prop :=
  ∀ (s : State) (p : PReg), s.Running →
    decode (word (0x25000000 + p.number * 2 ^ 22)) = .ok (.plen p) ∧
    exec (.plen p) s = .next { s with res := word (s.poly p).length } ∧
    ∀ k ≤ 255, decode (word (0x26000000 + p.number * 2 ^ 22 + k)) = .ok (.pget p k) ∧
      (∀ c, (s.poly p)[k]? = some c → exec (.pget p k) s = .next { s with res := zext c }) ∧
      ((s.poly p).length ≤ k →
        exec (.pget p k) s = .next { s with err := 3, ecmd := word (0x26000000 + p.number * 2 ^ 22 + k) })

/-! ## Payload, version, bit buffer -/

/-- R111: IPUSH stores the byte at ILEN while ILEN < 274 and counts it up to 65535. -/
def Obligations.IpushStoresAndCounts : Prop :=
  ∀ (s : State) (b : Byte), s.Running →
    decode (word (0x31000000 + b.toNat)) = .ok (.ipush b) ∧
    ∃ t, exec (.ipush b) s = .next t ∧ t = { s with ibuf := t.ibuf, ilen := t.ilen } ∧
      t.ilen.toNat = min (s.ilen.toNat + 1) 65535 ∧
      ∀ j, t.ibuf.read j = if j = s.ilen.toNat ∧ j < 274 then b else s.ibuf.read j

/-- R114, R112: SETLVL takes 0 to 3 and SETVER 1 to 10; every other operand raises E_RANGE. -/
def Obligations.SetlvlAndSetverSetOrRefuse : Prop :=
  ∀ (s : State) (n : Nat), s.Running → n < 256 →
    decode (word (0x32000000 + n)) = .ok (.setlvl n) ∧ decode (word (0x33000000 + n)) = .ok (.setver n) ∧
    (n ≤ 3 → ∃ t, exec (.setlvl n) s = .next t ∧ t.level.toNat = n ∧ t = { s with level := t.level }) ∧
    (3 < n → exec (.setlvl n) s = .next { s with err := 3, ecmd := word (0x32000000 + n) }) ∧
    (1 ≤ n → n ≤ 10 → ∃ t, exec (.setver n) s = .next t ∧ t.version.toNat = n ∧ t.nmod = 4 * n + 17 ∧
      t = { s with version := t.version }) ∧
    (n = 0 ∨ 10 < n → exec (.setver n) s = .next { s with err := 3, ecmd := word (0x33000000 + n) })

/-- R119: WRD writes one byte of DBUF; an index above 273 raises E_RANGE. -/
def Obligations.WrdWritesOneByte : Prop :=
  ∀ (s : State) (i : Nat) (b : Byte), s.Running → i < 512 →
    decode (word (0x34000000 + i * 256 + b.toNat)) = .ok (.wrd i b) ∧
    (i ≤ 273 → ∃ t, exec (.wrd i b) s = .next t ∧ t = { s with dbuf := t.dbuf } ∧
      ∀ j, t.dbuf.read j = if j = i then b else s.dbuf.read j) ∧
    (273 < i → exec (.wrd i b) s = .next { s with err := 3, ecmd := word (0x34000000 + i * 256 + b.toNat) })

/-- R113, R131, R132: the block layout has the printed B, ecCount, DTOT and CTOT and the facts of R132, and the capacity
formula gives the printed capacities, which rise with the version. -/
def Obligations.LayoutAndCapacityTables : Prop :=
  ∀ l : BitVec 2, ∀ v ∈ [1, 2, 3, 4, 5, 6, 7, 8, 9, 10],
    (blocks v l).length = tableEntry blockCountRows v l ∧ ecCountOf v l = tableEntry ecCountRows v l ∧
    dtotOf v l = tableEntry dtotRows v l ∧ ((blocks v l).map RSBlock.total).sum = printedCtot v ∧
    (∀ b ∈ blocks v l, b.total - b.data = ecCountOf v l ∧ 9 ≤ b.data ∧ b.data ≤ 116) ∧
    (blocks v l).Pairwise (fun a b => a.data ≤ b.data ∧ b.data ≤ a.data + 1) ∧
    dtotOf v l + (blocks v l).length * ecCountOf v l = printedCtot v ∧
    1 ≤ (blocks v l).length ∧ (blocks v l).length ≤ 8 ∧
    ecCountOf v l ∈ [7, 10, 13, 15, 16, 17, 18, 20, 22, 24, 26, 28, 30] ∧ dtotOf v l ≤ 274 ∧
    (blocks v l).length * ecCountOf v l ≤ 224 ∧ printedCtot v ≤ 346 ∧
    lenbits v = (if v = 10 then 16 else 8) ∧ capacity v l = printedCapacity v l ∧ (v < 10 → printedCapacity v l < printedCapacity (v + 1) l)

/-- R115: SELVER picks the first version whose capacity holds ILEN bytes and clears OVF, or picks 10 and sets OVF when none
does. -/
def Obligations.SelverPicksTheFirstVersionThatFits : Prop :=
  ∀ s : State, s.Running →
    decode 0x40000000 = .ok .selver ∧
    ∃ t, exec .selver s = .next t ∧ t = { s with version := t.version, ovf := t.ovf } ∧
      ((∃ v, 1 ≤ v ∧ v ≤ 10 ∧ s.ilen.toNat ≤ printedCapacity v s.level) →
        t.ovf = false ∧ 1 ≤ t.version.toNat ∧ t.version.toNat ≤ 10 ∧
        s.ilen.toNat ≤ printedCapacity t.version.toNat s.level ∧
        ∀ v, 1 ≤ v → v < t.version.toNat → printedCapacity v s.level < s.ilen.toNat) ∧
      ((∀ v, 1 ≤ v → v ≤ 10 → printedCapacity v s.level < s.ilen.toNat) → t.ovf = true ∧ t.version = 10)

/-- R117, R118, R120(b): PACK stores the 8·DTOT bits of mode indicator, length, payload, terminator and pad bytes, cut at the
capacity (OVERFLOW_POLICY = truncate, log entry 8), sets OVF exactly when ILEN is above the capacity, and leaves DBUF from
DTOT up. -/
def Obligations.PackStoresTheBitStream : Prop :=
  ∀ s : State, s.Running → s.LegalVersion →
    decode 0x41000000 = .ok .pack ∧
    ∃ t, exec .pack s = .next t ∧ t = { s with dbuf := t.dbuf, ovf := t.ovf } ∧
      (t.ovf = true ↔ printedCapacity s.version.toNat s.level < s.ilen.toNat) ∧
      (∀ j < 8 * s.dtot, t.dbuf.bitAt j = packedBit s.version.toNat s.ilen.toNat s.ibuf j) ∧
      ∀ i, s.dtot ≤ i → t.dbuf.read i = s.dbuf.read i

/-! ## Reed-Solomon and interleaving -/

/-- R134, R135, R137: RSENC never faults; it leaves, block by block, the remainder of the data polynomial by the generator
polynomial, right-aligned in ecCount bytes, and leaves ECBUF from B·ecCount up. -/
def Obligations.RsencLeavesTheRemainders : Prop :=
  ∀ s : State, s.Running → s.LegalVersion →
    decode 0x42000000 = .ok .rsenc ∧
    ∃ t, exec .rsenc s = .next t ∧ t = { s with ecbuf := t.ecbuf } ∧
      (∀ b < (blocks s.version.toNat s.level).length, ∃ g r,
        pgen (ecCountOf s.version.toNat s.level) = .ok g ∧
        pmod (s.dbuf.slice (blockOffset s.version.toNat s.level b) (blockData s.version.toNat s.level b) ++
          zeros (ecCountOf s.version.toNat s.level)) g = .ok r ∧
        r.length ≤ ecCountOf s.version.toNat s.level ∧
        ∀ i < ecCountOf s.version.toNat s.level,
          t.ecbuf.read (b * ecCountOf s.version.toNat s.level + i) =
            (zeros (ecCountOf s.version.toNat s.level - r.length) ++ r).getD i 0) ∧
      ∀ j, (blocks s.version.toNat s.level).length * ecCountOf s.version.toNat s.level ≤ j →
        t.ecbuf.read j = s.ecbuf.read j

/-- R133, R137: the data codewords of a block followed by the EC codewords that RSENC leaves are a multiple of the printed
generator polynomial, which is what makes them "a codeword of the code". -/
def Obligations.RsencBlocksAreMultiplesOfTheGenerator : Prop :=
  ∀ s t : State, s.Running → s.LegalVersion → exec .rsenc s = .next t →
    ∀ b < (blocks s.version.toNat s.level).length, ∀ g,
      (ecCountOf s.version.toNat s.level, g) ∈ printedGenerators →
      ∃ q, ∀ k,
        coeff (s.dbuf.slice (blockOffset s.version.toNat s.level b) (blockData s.version.toNat s.level b) ++
          t.ecbuf.slice (b * ecCountOf s.version.toNat s.level) (ecCountOf s.version.toNat s.level)) k =
        productCoeff q g k

/-- R136: ILV leaves data codeword i of block b after the codewords of the earlier columns and of the earlier blocks of its
column, then EC codeword i of block b at DTOT + i·B + b; CWLEN = CTOT; CW from CWLEN up is left. -/
def Obligations.IlvInterleavesColumnWise : Prop :=
  ∀ s : State, s.Running → s.LegalVersion →
    decode 0x43000000 = .ok .ilv ∧
    ∃ t, exec .ilv s = .next t ∧ t = { s with cw := t.cw, cwlen := t.cwlen } ∧
      t.cwlen.toNat = printedCtot s.version.toNat ∧
      (∀ b < (blocks s.version.toNat s.level).length,
        (∀ i < blockData s.version.toNat s.level b,
          t.cw.read (dataPosition s.version.toNat s.level b i) =
            s.dbuf.read (blockOffset s.version.toNat s.level b + i)) ∧
        ∀ i < ecCountOf s.version.toNat s.level,
          t.cw.read (s.dtot + i * (blocks s.version.toNat s.level).length + b) =
            s.ecbuf.read (b * ecCountOf s.version.toNat s.level + i)) ∧
      ∀ j, t.cwlen.toNat ≤ j → t.cw.read j = s.cw.read j

/-! ## Matrix -/

/-- R151 to R159: BUILD m leaves what its steps 1 to 7, written one cell at a time in the order of the rules, leave; it sets
MASK and clears FINAL; m above 7 raises E_RANGE. -/
def Obligations.BuildRunsItsSteps : Prop :=
  ∀ (s : State) (m : Nat), s.Running → s.LegalVersion → m < 256 →
    decode (word (0x44000000 + m)) = .ok (.build m) ∧
    (m ≤ 7 → ∃ t, exec (.build m) s = .next t ∧ t = { s with mat := t.mat, mask := t.mask, final := t.final } ∧
      t.mat = buildBySteps s.version.toNat s.cw s.cwlen.toNat m ∧ t.mask.toNat = m ∧ t.final = false) ∧
    (7 < m → exec (.build m) s = .next { s with err := 3, ecmd := word (0x44000000 + m) })

/-- R160: after BUILD every cell inside N × N is light or dark and every cell outside is unset. -/
def Obligations.BuildSetsEveryCellOfTheSymbol : Prop :=
  ∀ (s : State) (m : Nat), s.Running → s.LegalVersion → m ≤ 7 →
    ∃ t, exec (.build m) s = .next t ∧ ∀ r c, t.mat.read r c = .unset ↔ ¬(r < s.nmod ∧ c < s.nmod)

/-- R162, R161: whatever CW and the mask, the corner regions hold the finder patterns with their separators, (N-8, 8) is
dark, the timing cells alternate, the format and version cells are light until WRFMT, and the cells that are not data cells
are N² less the printed count. -/
def Obligations.BuildLeavesTheFixedPatterns : Prop :=
  (∀ (s : State) (m : Nat), s.Running → s.LegalVersion → m ≤ 7 →
    ∃ t, exec (.build m) s = .next t ∧
      (∀ e ∈ finderWrites s.nmod, t.mat.read e.1.1 e.1.2 = e.2) ∧
      t.mat.read (s.nmod - 8) 8 = .dark ∧
      (∀ k, 8 ≤ k → k ≤ s.nmod - 9 →
        t.mat.read 6 k = (if k % 2 = 0 then .dark else .light) ∧
        t.mat.read k 6 = (if k % 2 = 0 then .dark else .light)) ∧
      (∀ p ∈ formatCells s.nmod ++ versionCells s.version.toNat, t.mat.read p.1 p.2 = .light)) ∧
  ∀ v ∈ [1, 2, 3, 4, 5, 6, 7, 8, 9, 10], (dataCells v).length = dataCellRow.getD (v - 1) 0 ∧
    ((gridCells (moduleCount v)).filter fun p => !(dataCells v).contains p).length =
      moduleCount v * moduleCount v - dataCellRow.getD (v - 1) 0

/-- R45, R158: data cell number n of the traversal is dark exactly when bit n of the codeword stream (bit 7 of each byte
first, 0 past CWLEN codewords) differs from the mask predicate there. -/
def Obligations.DataCellsCarryTheMaskedStream : Prop :=
  ∀ (s : State) (m : Nat), s.Running → s.LegalVersion → m ≤ 7 →
    ∃ t, exec (.build m) s = .next t ∧
      ∀ n p, (dataCells s.version.toNat)[n]? = some p →
        (t.mat.read p.1 p.2 = .dark ↔
          ((n / 8 < s.cwlen.toNat ∧ s.cw.bitAt n = true) ↔ ¬maskfn m p.1 p.2 = true))

/-- R171 to R174, R178: SCORE leaves the three penalties of the N × N grid and their sum, within their bounds. -/
def Obligations.ScoreLeavesThePenalties : Prop :=
  ∀ s : State, s.Running →
    decode 0x45000000 = .ok .score ∧
    ∃ t, exec .score s = .next t ∧ t = { s with pena := t.pena, penb := t.penb, penc := t.penc, res := t.res } ∧
      t.pena.toNat = penaltyA s.nmod s.mat ∧ t.penb.toNat = penaltyB s.nmod s.mat ∧
      t.penc.toNat = penaltyC s.nmod s.mat ∧ t.res.toNat = t.pena.toNat + t.penb.toNat + t.penc.toNat ∧
      t.pena.toNat ≤ 6 * s.nmod ^ 2 ∧ t.penb.toNat ≤ 40 * 2 * s.nmod * (s.nmod - 6) ∧ t.penc.toNat ≤ 100 ∧
      (s.LegalVersion → t.res.toNat ≤ 252154)

/-- R176: EVAL runs BUILD m and SCORE for m = 0..7, records each total in PENm, leaves the last trial in MAT, and leaves in
BEST and RES the least m whose total is minimal. -/
def Obligations.EvalPicksTheLeastMinimalMask : Prop :=
  ∀ s : State, s.Running →
    decode 0x46000000 = .ok .eval ∧
    ∃ t, exec .eval s = .next t ∧
      t = { s with mat := t.mat, mask := t.mask, final := t.final, pena := t.pena, penb := t.penb, penc := t.penc,
                   pen := t.pen, best := t.best, res := t.res } ∧
      (∀ m < 8, ∃ u w, exec (.build m) s = .next u ∧ exec .score u = .next w ∧ t.penalty m = w.res ∧
        (m = 7 → t.mat = w.mat ∧ t.mask = w.mask ∧ t.final = w.final ∧
          t.pena = w.pena ∧ t.penb = w.penb ∧ t.penc = w.penc)) ∧
      t.mask = 7 ∧ t.final = false ∧ t.res = zext t.best ∧
      (∀ m < 8, (t.penalty t.best.toNat).toNat ≤ (t.penalty m).toNat) ∧
      ∀ m < t.best.toNat, (t.penalty t.best.toNat).toNat < (t.penalty m).toNat

/-! ## Format and version information, composite commands -/

/-- R187 to R192: FMT d gives the printed format word, whose data bits are d and which, without FMASK, is a multiple of G15;
VINF d gives the 18-bit word with data bits d that is a multiple of G18; larger operands raise E_RANGE. -/
def Obligations.FmtAndVinfGiveTheBchWords : Prop :=
  ∀ (s : State) (d : Nat), s.Running → d < 256 →
    decode (word (0x4A000000 + d)) = .ok (.fmt d) ∧ decode (word (0x4B000000 + d)) = .ok (.vinf d) ∧
    (d ≤ 31 → exec (.fmt d) s = .next { s with res := word (printedFormatWords.getD d 0) } ∧
      (printedFormatWords.getD d 0 ^^^ 0x5412) / 2 ^ 10 = d ∧
      ∃ q < 32, printedFormatWords.getD d 0 ^^^ 0x5412 = clmul q 0x537) ∧
    (31 < d → exec (.fmt d) s = .next { s with err := 3, ecmd := word (0x4A000000 + d) }) ∧
    (d ≤ 63 → ∃ w, exec (.vinf d) s = .next { s with res := word w } ∧ w / 2 ^ 12 = d ∧
      (∃ q < 64, w = clmul q 0x1F25) ∧ (7 ≤ d → d ≤ 10 → w = printedVersionWords.getD (d - 7) 0)) ∧
    (63 < d → exec (.vinf d) s = .next { s with err := 3, ecmd := word (0x4B000000 + d) })

/-- R186, R191, R193, R194: WRFMT writes bit i of the format word of (LEVEL, MASK) to both its cells and, from version 7 up,
bit i of the version word to both its cells, touches no other cell and sets FINAL. -/
def Obligations.WrfmtWritesFormatAndVersionCells : Prop :=
  ∀ s : State, s.Running → s.LegalVersion →
    decode 0x47000000 = .ok .wrfmt ∧
    ∃ t, exec .wrfmt s = .next t ∧ t = { s with mat := t.mat, final := true } ∧
      (∀ i < 15, ∀ p ∈ [copyA s.nmod i, copyB s.nmod i],
        t.mat.read p.1 p.2 =
          if (printedFormatWords.getD (8 * s.level.toNat + s.mask.toNat) 0).testBit i then .dark else .light) ∧
      (7 ≤ s.version.toNat → ∀ i < 18, ∀ p ∈ [blockA s.nmod i, blockB s.nmod i],
        t.mat.read p.1 p.2 =
          if (printedVersionWords.getD (s.version.toNat - 7) 0).testBit i then .dark else .light) ∧
      ∀ r c, (r, c) ∉ formatCells s.nmod → (r, c) ∉ versionCells s.version.toNat → t.mat.read r c = s.mat.read r c

/-- R195: FINAL is BUILD BEST, then WRFMT. -/
def Obligations.FinalIsBuildBestThenWrfmt : Prop :=
  ∀ s : State, s.Running →
    decode 0x48000000 = .ok .final ∧
    ∃ u t, exec (.build s.best.toNat) s = .next u ∧ exec .wrfmt u = .next t ∧ exec .final s = .next t ∧
      t = { s with mat := t.mat, mask := s.best, final := true }

/-- R196: ENCODE is SELVER, PACK, RSENC, ILV, EVAL, FINAL, and never faults. -/
def Obligations.EncodeIsTheSixStages : Prop :=
  ∀ s : State, s.Running →
    decode 0x49000000 = .ok .encode ∧
    ∃ a b c d e t, exec .selver s = .next a ∧ exec .pack a = .next b ∧ exec .rsenc b = .next c ∧
      exec .ilv c = .next d ∧ exec .eval d = .next e ∧ exec .final e = .next t ∧ exec .encode s = .next t ∧
      t.err = 0 ∧ t.ovf = a.ovf ∧ t.final = true ∧ t.res = zext t.best

/-- R197: after ENCODE every cell inside N × N is light or dark, the finder regions and the dark module are as BUILD leaves
them, MASK = BEST, and BEST is the least index of a minimal PENm. -/
def Obligations.EncodeLeavesAFinishedSymbol : Prop :=
  ∀ s : State, s.Running →
    ∃ t, exec .encode s = .next t ∧ t.LegalVersion ∧
      (∀ r c, t.mat.read r c = .unset ↔ ¬(r < t.nmod ∧ c < t.nmod)) ∧
      (∀ e ∈ finderWrites t.nmod, t.mat.read e.1.1 e.1.2 = e.2) ∧ t.mat.read (t.nmod - 8) 8 = .dark ∧
      t.mask = t.best ∧ (∀ m < 8, (t.penalty t.best.toNat).toNat ≤ (t.penalty m).toNat) ∧
      ∀ m < t.best.toNat, (t.penalty t.best.toNat).toNat < (t.penalty m).toNat

/-- R32: the outcome of ENCODE is a function of LEVEL, ILEN and the payload bytes alone: two states that agree there and in
nothing else end alike. -/
def Obligations.EncodeDependsOnlyOnThePayload : Prop :=
  ∀ s s' t t' : State, s.Running → s'.Running → s.level = s'.level → s.ilen = s'.ilen →
    (∀ i < min s.ilen.toNat 274, s.ibuf.read i = s'.ibuf.read i) →
    exec .encode s = .next t → exec .encode s' = .next t' → t.SameOutcome t'
end

