-- ==== Sys2Proof/Laws/State.lean ====
section
/-! SUPPORT. The small lemmas of State: one per field per named update, so that no later proof unfolds a record update; and
the frames of the stage effects. -/
namespace Sys2Proof.Machine


section State_setRes
variable (s : State) (v : Word)

@[simp] theorem State.setRes_res : (s.setRes v).res = v := rfl
@[simp] theorem State.setRes_err : (s.setRes v).err = s.err := rfl
@[simp] theorem State.setRes_ecmd : (s.setRes v).ecmd = s.ecmd := rfl
@[simp] theorem State.setRes_ovf : (s.setRes v).ovf = s.ovf := rfl
@[simp] theorem State.setRes_final : (s.setRes v).final = s.final := rfl
@[simp] theorem State.setRes_level : (s.setRes v).level = s.level := rfl
@[simp] theorem State.setRes_version : (s.setRes v).version = s.version := rfl
@[simp] theorem State.setRes_mask : (s.setRes v).mask = s.mask := rfl
@[simp] theorem State.setRes_best : (s.setRes v).best = s.best := rfl
@[simp] theorem State.setRes_ilen : (s.setRes v).ilen = s.ilen := rfl
@[simp] theorem State.setRes_cwlen : (s.setRes v).cwlen = s.cwlen := rfl
@[simp] theorem State.setRes_pena : (s.setRes v).pena = s.pena := rfl
@[simp] theorem State.setRes_penb : (s.setRes v).penb = s.penb := rfl
@[simp] theorem State.setRes_penc : (s.setRes v).penc = s.penc := rfl
@[simp] theorem State.setRes_pen : (s.setRes v).pen = s.pen := rfl
@[simp] theorem State.setRes_p0 : (s.setRes v).p0 = s.p0 := rfl
@[simp] theorem State.setRes_p1 : (s.setRes v).p1 = s.p1 := rfl
@[simp] theorem State.setRes_p2 : (s.setRes v).p2 = s.p2 := rfl
@[simp] theorem State.setRes_p3 : (s.setRes v).p3 = s.p3 := rfl
@[simp] theorem State.setRes_ibuf : (s.setRes v).ibuf = s.ibuf := rfl
@[simp] theorem State.setRes_dbuf : (s.setRes v).dbuf = s.dbuf := rfl
@[simp] theorem State.setRes_ecbuf : (s.setRes v).ecbuf = s.ecbuf := rfl
@[simp] theorem State.setRes_cw : (s.setRes v).cw = s.cw := rfl
@[simp] theorem State.setRes_mat : (s.setRes v).mat = s.mat := rfl
@[simp] theorem State.setRes_host : (s.setRes v).host = s.host := rfl

end State_setRes

section State_raise
variable (c : FaultCode) (w : Word) (s : State)

@[simp] theorem State.raise_res : (s.raise c w).res = s.res := rfl
@[simp] theorem State.raise_err : (s.raise c w).err = c.code := rfl
@[simp] theorem State.raise_ecmd : (s.raise c w).ecmd = w := rfl
@[simp] theorem State.raise_ovf : (s.raise c w).ovf = s.ovf := rfl
@[simp] theorem State.raise_final : (s.raise c w).final = s.final := rfl
@[simp] theorem State.raise_level : (s.raise c w).level = s.level := rfl
@[simp] theorem State.raise_version : (s.raise c w).version = s.version := rfl
@[simp] theorem State.raise_mask : (s.raise c w).mask = s.mask := rfl
@[simp] theorem State.raise_best : (s.raise c w).best = s.best := rfl
@[simp] theorem State.raise_ilen : (s.raise c w).ilen = s.ilen := rfl
@[simp] theorem State.raise_cwlen : (s.raise c w).cwlen = s.cwlen := rfl
@[simp] theorem State.raise_pena : (s.raise c w).pena = s.pena := rfl
@[simp] theorem State.raise_penb : (s.raise c w).penb = s.penb := rfl
@[simp] theorem State.raise_penc : (s.raise c w).penc = s.penc := rfl
@[simp] theorem State.raise_pen : (s.raise c w).pen = s.pen := rfl
@[simp] theorem State.raise_p0 : (s.raise c w).p0 = s.p0 := rfl
@[simp] theorem State.raise_p1 : (s.raise c w).p1 = s.p1 := rfl
@[simp] theorem State.raise_p2 : (s.raise c w).p2 = s.p2 := rfl
@[simp] theorem State.raise_p3 : (s.raise c w).p3 = s.p3 := rfl
@[simp] theorem State.raise_ibuf : (s.raise c w).ibuf = s.ibuf := rfl
@[simp] theorem State.raise_dbuf : (s.raise c w).dbuf = s.dbuf := rfl
@[simp] theorem State.raise_ecbuf : (s.raise c w).ecbuf = s.ecbuf := rfl
@[simp] theorem State.raise_cw : (s.raise c w).cw = s.cw := rfl
@[simp] theorem State.raise_mat : (s.raise c w).mat = s.mat := rfl
@[simp] theorem State.raise_host : (s.raise c w).host = s.host := rfl

end State_raise

section State_toReset
variable (s : State)

@[simp] theorem State.toReset_res : s.toReset.res = State.reset.res := rfl
@[simp] theorem State.toReset_err : s.toReset.err = State.reset.err := rfl
@[simp] theorem State.toReset_ecmd : s.toReset.ecmd = State.reset.ecmd := rfl
@[simp] theorem State.toReset_ovf : s.toReset.ovf = State.reset.ovf := rfl
@[simp] theorem State.toReset_final : s.toReset.final = State.reset.final := rfl
@[simp] theorem State.toReset_level : s.toReset.level = State.reset.level := rfl
@[simp] theorem State.toReset_version : s.toReset.version = State.reset.version := rfl
@[simp] theorem State.toReset_mask : s.toReset.mask = State.reset.mask := rfl
@[simp] theorem State.toReset_best : s.toReset.best = State.reset.best := rfl
@[simp] theorem State.toReset_ilen : s.toReset.ilen = State.reset.ilen := rfl
@[simp] theorem State.toReset_cwlen : s.toReset.cwlen = State.reset.cwlen := rfl
@[simp] theorem State.toReset_pena : s.toReset.pena = State.reset.pena := rfl
@[simp] theorem State.toReset_penb : s.toReset.penb = State.reset.penb := rfl
@[simp] theorem State.toReset_penc : s.toReset.penc = State.reset.penc := rfl
@[simp] theorem State.toReset_pen : s.toReset.pen = State.reset.pen := rfl
@[simp] theorem State.toReset_p0 : s.toReset.p0 = State.reset.p0 := rfl
@[simp] theorem State.toReset_p1 : s.toReset.p1 = State.reset.p1 := rfl
@[simp] theorem State.toReset_p2 : s.toReset.p2 = State.reset.p2 := rfl
@[simp] theorem State.toReset_p3 : s.toReset.p3 = State.reset.p3 := rfl
@[simp] theorem State.toReset_ibuf : s.toReset.ibuf = State.reset.ibuf := rfl
@[simp] theorem State.toReset_dbuf : s.toReset.dbuf = State.reset.dbuf := rfl
@[simp] theorem State.toReset_ecbuf : s.toReset.ecbuf = State.reset.ecbuf := rfl
@[simp] theorem State.toReset_cw : s.toReset.cw = State.reset.cw := rfl
@[simp] theorem State.toReset_mat : s.toReset.mat = State.reset.mat := rfl
@[simp] theorem State.toReset_host : s.toReset.host = s.host := rfl

end State_toReset

section State_setPoly
variable (s : State) (p : PReg) (v : List Byte)

@[simp] theorem State.setPoly_res : (s.setPoly p v).res = s.res := by cases p <;> rfl
@[simp] theorem State.setPoly_err : (s.setPoly p v).err = s.err := by cases p <;> rfl
@[simp] theorem State.setPoly_ecmd : (s.setPoly p v).ecmd = s.ecmd := by cases p <;> rfl
@[simp] theorem State.setPoly_ovf : (s.setPoly p v).ovf = s.ovf := by cases p <;> rfl
@[simp] theorem State.setPoly_final : (s.setPoly p v).final = s.final := by cases p <;> rfl
@[simp] theorem State.setPoly_level : (s.setPoly p v).level = s.level := by cases p <;> rfl
@[simp] theorem State.setPoly_version : (s.setPoly p v).version = s.version := by cases p <;> rfl
@[simp] theorem State.setPoly_mask : (s.setPoly p v).mask = s.mask := by cases p <;> rfl
@[simp] theorem State.setPoly_best : (s.setPoly p v).best = s.best := by cases p <;> rfl
@[simp] theorem State.setPoly_ilen : (s.setPoly p v).ilen = s.ilen := by cases p <;> rfl
@[simp] theorem State.setPoly_cwlen : (s.setPoly p v).cwlen = s.cwlen := by cases p <;> rfl
@[simp] theorem State.setPoly_pena : (s.setPoly p v).pena = s.pena := by cases p <;> rfl
@[simp] theorem State.setPoly_penb : (s.setPoly p v).penb = s.penb := by cases p <;> rfl
@[simp] theorem State.setPoly_penc : (s.setPoly p v).penc = s.penc := by cases p <;> rfl
@[simp] theorem State.setPoly_pen : (s.setPoly p v).pen = s.pen := by cases p <;> rfl
@[simp] theorem State.setPoly_ibuf : (s.setPoly p v).ibuf = s.ibuf := by cases p <;> rfl
@[simp] theorem State.setPoly_dbuf : (s.setPoly p v).dbuf = s.dbuf := by cases p <;> rfl
@[simp] theorem State.setPoly_ecbuf : (s.setPoly p v).ecbuf = s.ecbuf := by cases p <;> rfl
@[simp] theorem State.setPoly_cw : (s.setPoly p v).cw = s.cw := by cases p <;> rfl
@[simp] theorem State.setPoly_mat : (s.setPoly p v).mat = s.mat := by cases p <;> rfl
@[simp] theorem State.setPoly_host : (s.setPoly p v).host = s.host := by cases p <;> rfl

@[simp] theorem State.setPoly_poly (q : PReg) : (s.setPoly p v).poly q = if q = p then v else s.poly q := by
  cases p <;> cases q <;> rfl

end State_setPoly

section ipushState
variable (b : Byte) (s : State)

@[simp] theorem ipushState_res : (ipushState b s).res = s.res := rfl
@[simp] theorem ipushState_err : (ipushState b s).err = s.err := rfl
@[simp] theorem ipushState_ecmd : (ipushState b s).ecmd = s.ecmd := rfl
@[simp] theorem ipushState_ovf : (ipushState b s).ovf = s.ovf := rfl
@[simp] theorem ipushState_final : (ipushState b s).final = s.final := rfl
@[simp] theorem ipushState_level : (ipushState b s).level = s.level := rfl
@[simp] theorem ipushState_version : (ipushState b s).version = s.version := rfl
@[simp] theorem ipushState_mask : (ipushState b s).mask = s.mask := rfl
@[simp] theorem ipushState_best : (ipushState b s).best = s.best := rfl
@[simp] theorem ipushState_cwlen : (ipushState b s).cwlen = s.cwlen := rfl
@[simp] theorem ipushState_pena : (ipushState b s).pena = s.pena := rfl
@[simp] theorem ipushState_penb : (ipushState b s).penb = s.penb := rfl
@[simp] theorem ipushState_penc : (ipushState b s).penc = s.penc := rfl
@[simp] theorem ipushState_pen : (ipushState b s).pen = s.pen := rfl
@[simp] theorem ipushState_p0 : (ipushState b s).p0 = s.p0 := rfl
@[simp] theorem ipushState_p1 : (ipushState b s).p1 = s.p1 := rfl
@[simp] theorem ipushState_p2 : (ipushState b s).p2 = s.p2 := rfl
@[simp] theorem ipushState_p3 : (ipushState b s).p3 = s.p3 := rfl
@[simp] theorem ipushState_dbuf : (ipushState b s).dbuf = s.dbuf := rfl
@[simp] theorem ipushState_ecbuf : (ipushState b s).ecbuf = s.ecbuf := rfl
@[simp] theorem ipushState_cw : (ipushState b s).cw = s.cw := rfl
@[simp] theorem ipushState_mat : (ipushState b s).mat = s.mat := rfl
@[simp] theorem ipushState_host : (ipushState b s).host = s.host := rfl

end ipushState

section selverState
variable (s : State)

@[simp] theorem selverState_res : (selverState s).res = s.res := rfl
@[simp] theorem selverState_err : (selverState s).err = s.err := rfl
@[simp] theorem selverState_ecmd : (selverState s).ecmd = s.ecmd := rfl
@[simp] theorem selverState_final : (selverState s).final = s.final := rfl
@[simp] theorem selverState_level : (selverState s).level = s.level := rfl
@[simp] theorem selverState_mask : (selverState s).mask = s.mask := rfl
@[simp] theorem selverState_best : (selverState s).best = s.best := rfl
@[simp] theorem selverState_ilen : (selverState s).ilen = s.ilen := rfl
@[simp] theorem selverState_cwlen : (selverState s).cwlen = s.cwlen := rfl
@[simp] theorem selverState_pena : (selverState s).pena = s.pena := rfl
@[simp] theorem selverState_penb : (selverState s).penb = s.penb := rfl
@[simp] theorem selverState_penc : (selverState s).penc = s.penc := rfl
@[simp] theorem selverState_pen : (selverState s).pen = s.pen := rfl
@[simp] theorem selverState_p0 : (selverState s).p0 = s.p0 := rfl
@[simp] theorem selverState_p1 : (selverState s).p1 = s.p1 := rfl
@[simp] theorem selverState_p2 : (selverState s).p2 = s.p2 := rfl
@[simp] theorem selverState_p3 : (selverState s).p3 = s.p3 := rfl
@[simp] theorem selverState_ibuf : (selverState s).ibuf = s.ibuf := rfl
@[simp] theorem selverState_dbuf : (selverState s).dbuf = s.dbuf := rfl
@[simp] theorem selverState_ecbuf : (selverState s).ecbuf = s.ecbuf := rfl
@[simp] theorem selverState_cw : (selverState s).cw = s.cw := rfl
@[simp] theorem selverState_mat : (selverState s).mat = s.mat := rfl
@[simp] theorem selverState_host : (selverState s).host = s.host := rfl

end selverState

section packState
variable (s : State)

@[simp] theorem packState_res : (packState s).res = s.res := rfl
@[simp] theorem packState_err : (packState s).err = s.err := rfl
@[simp] theorem packState_ecmd : (packState s).ecmd = s.ecmd := rfl
@[simp] theorem packState_final : (packState s).final = s.final := rfl
@[simp] theorem packState_level : (packState s).level = s.level := rfl
@[simp] theorem packState_version : (packState s).version = s.version := rfl
@[simp] theorem packState_mask : (packState s).mask = s.mask := rfl
@[simp] theorem packState_best : (packState s).best = s.best := rfl
@[simp] theorem packState_ilen : (packState s).ilen = s.ilen := rfl
@[simp] theorem packState_cwlen : (packState s).cwlen = s.cwlen := rfl
@[simp] theorem packState_pena : (packState s).pena = s.pena := rfl
@[simp] theorem packState_penb : (packState s).penb = s.penb := rfl
@[simp] theorem packState_penc : (packState s).penc = s.penc := rfl
@[simp] theorem packState_pen : (packState s).pen = s.pen := rfl
@[simp] theorem packState_p0 : (packState s).p0 = s.p0 := rfl
@[simp] theorem packState_p1 : (packState s).p1 = s.p1 := rfl
@[simp] theorem packState_p2 : (packState s).p2 = s.p2 := rfl
@[simp] theorem packState_p3 : (packState s).p3 = s.p3 := rfl
@[simp] theorem packState_ibuf : (packState s).ibuf = s.ibuf := rfl
@[simp] theorem packState_ecbuf : (packState s).ecbuf = s.ecbuf := rfl
@[simp] theorem packState_cw : (packState s).cw = s.cw := rfl
@[simp] theorem packState_mat : (packState s).mat = s.mat := rfl
@[simp] theorem packState_host : (packState s).host = s.host := rfl

end packState

section ilvState
variable (s : State)

@[simp] theorem ilvState_res : (ilvState s).res = s.res := rfl
@[simp] theorem ilvState_err : (ilvState s).err = s.err := rfl
@[simp] theorem ilvState_ecmd : (ilvState s).ecmd = s.ecmd := rfl
@[simp] theorem ilvState_ovf : (ilvState s).ovf = s.ovf := rfl
@[simp] theorem ilvState_final : (ilvState s).final = s.final := rfl
@[simp] theorem ilvState_level : (ilvState s).level = s.level := rfl
@[simp] theorem ilvState_version : (ilvState s).version = s.version := rfl
@[simp] theorem ilvState_mask : (ilvState s).mask = s.mask := rfl
@[simp] theorem ilvState_best : (ilvState s).best = s.best := rfl
@[simp] theorem ilvState_ilen : (ilvState s).ilen = s.ilen := rfl
@[simp] theorem ilvState_pena : (ilvState s).pena = s.pena := rfl
@[simp] theorem ilvState_penb : (ilvState s).penb = s.penb := rfl
@[simp] theorem ilvState_penc : (ilvState s).penc = s.penc := rfl
@[simp] theorem ilvState_pen : (ilvState s).pen = s.pen := rfl
@[simp] theorem ilvState_p0 : (ilvState s).p0 = s.p0 := rfl
@[simp] theorem ilvState_p1 : (ilvState s).p1 = s.p1 := rfl
@[simp] theorem ilvState_p2 : (ilvState s).p2 = s.p2 := rfl
@[simp] theorem ilvState_p3 : (ilvState s).p3 = s.p3 := rfl
@[simp] theorem ilvState_ibuf : (ilvState s).ibuf = s.ibuf := rfl
@[simp] theorem ilvState_dbuf : (ilvState s).dbuf = s.dbuf := rfl
@[simp] theorem ilvState_ecbuf : (ilvState s).ecbuf = s.ecbuf := rfl
@[simp] theorem ilvState_mat : (ilvState s).mat = s.mat := rfl
@[simp] theorem ilvState_host : (ilvState s).host = s.host := rfl

end ilvState

section buildState
variable (m : Nat) (s : State)

@[simp] theorem buildState_res : (buildState m s).res = s.res := rfl
@[simp] theorem buildState_err : (buildState m s).err = s.err := rfl
@[simp] theorem buildState_ecmd : (buildState m s).ecmd = s.ecmd := rfl
@[simp] theorem buildState_ovf : (buildState m s).ovf = s.ovf := rfl
@[simp] theorem buildState_level : (buildState m s).level = s.level := rfl
@[simp] theorem buildState_version : (buildState m s).version = s.version := rfl
@[simp] theorem buildState_best : (buildState m s).best = s.best := rfl
@[simp] theorem buildState_ilen : (buildState m s).ilen = s.ilen := rfl
@[simp] theorem buildState_cwlen : (buildState m s).cwlen = s.cwlen := rfl
@[simp] theorem buildState_pena : (buildState m s).pena = s.pena := rfl
@[simp] theorem buildState_penb : (buildState m s).penb = s.penb := rfl
@[simp] theorem buildState_penc : (buildState m s).penc = s.penc := rfl
@[simp] theorem buildState_pen : (buildState m s).pen = s.pen := rfl
@[simp] theorem buildState_p0 : (buildState m s).p0 = s.p0 := rfl
@[simp] theorem buildState_p1 : (buildState m s).p1 = s.p1 := rfl
@[simp] theorem buildState_p2 : (buildState m s).p2 = s.p2 := rfl
@[simp] theorem buildState_p3 : (buildState m s).p3 = s.p3 := rfl
@[simp] theorem buildState_ibuf : (buildState m s).ibuf = s.ibuf := rfl
@[simp] theorem buildState_dbuf : (buildState m s).dbuf = s.dbuf := rfl
@[simp] theorem buildState_ecbuf : (buildState m s).ecbuf = s.ecbuf := rfl
@[simp] theorem buildState_cw : (buildState m s).cw = s.cw := rfl
@[simp] theorem buildState_host : (buildState m s).host = s.host := rfl

end buildState

section scoreState
variable (s : State)

@[simp] theorem scoreState_err : (scoreState s).err = s.err := rfl
@[simp] theorem scoreState_ecmd : (scoreState s).ecmd = s.ecmd := rfl
@[simp] theorem scoreState_ovf : (scoreState s).ovf = s.ovf := rfl
@[simp] theorem scoreState_final : (scoreState s).final = s.final := rfl
@[simp] theorem scoreState_level : (scoreState s).level = s.level := rfl
@[simp] theorem scoreState_version : (scoreState s).version = s.version := rfl
@[simp] theorem scoreState_mask : (scoreState s).mask = s.mask := rfl
@[simp] theorem scoreState_best : (scoreState s).best = s.best := rfl
@[simp] theorem scoreState_ilen : (scoreState s).ilen = s.ilen := rfl
@[simp] theorem scoreState_cwlen : (scoreState s).cwlen = s.cwlen := rfl
@[simp] theorem scoreState_pen : (scoreState s).pen = s.pen := rfl
@[simp] theorem scoreState_p0 : (scoreState s).p0 = s.p0 := rfl
@[simp] theorem scoreState_p1 : (scoreState s).p1 = s.p1 := rfl
@[simp] theorem scoreState_p2 : (scoreState s).p2 = s.p2 := rfl
@[simp] theorem scoreState_p3 : (scoreState s).p3 = s.p3 := rfl
@[simp] theorem scoreState_ibuf : (scoreState s).ibuf = s.ibuf := rfl
@[simp] theorem scoreState_dbuf : (scoreState s).dbuf = s.dbuf := rfl
@[simp] theorem scoreState_ecbuf : (scoreState s).ecbuf = s.ecbuf := rfl
@[simp] theorem scoreState_cw : (scoreState s).cw = s.cw := rfl
@[simp] theorem scoreState_mat : (scoreState s).mat = s.mat := rfl
@[simp] theorem scoreState_host : (scoreState s).host = s.host := rfl

end scoreState

section trialState
variable (m : Nat) (s : State)

@[simp] theorem trialState_err : (trialState m s).err = s.err := rfl
@[simp] theorem trialState_ecmd : (trialState m s).ecmd = s.ecmd := rfl
@[simp] theorem trialState_ovf : (trialState m s).ovf = s.ovf := rfl
@[simp] theorem trialState_level : (trialState m s).level = s.level := rfl
@[simp] theorem trialState_version : (trialState m s).version = s.version := rfl
@[simp] theorem trialState_best : (trialState m s).best = s.best := rfl
@[simp] theorem trialState_ilen : (trialState m s).ilen = s.ilen := rfl
@[simp] theorem trialState_cwlen : (trialState m s).cwlen = s.cwlen := rfl
@[simp] theorem trialState_p0 : (trialState m s).p0 = s.p0 := rfl
@[simp] theorem trialState_p1 : (trialState m s).p1 = s.p1 := rfl
@[simp] theorem trialState_p2 : (trialState m s).p2 = s.p2 := rfl
@[simp] theorem trialState_p3 : (trialState m s).p3 = s.p3 := rfl
@[simp] theorem trialState_ibuf : (trialState m s).ibuf = s.ibuf := rfl
@[simp] theorem trialState_dbuf : (trialState m s).dbuf = s.dbuf := rfl
@[simp] theorem trialState_ecbuf : (trialState m s).ecbuf = s.ecbuf := rfl
@[simp] theorem trialState_cw : (trialState m s).cw = s.cw := rfl
@[simp] theorem trialState_host : (trialState m s).host = s.host := rfl

end trialState

section wrfmtState
variable (s : State)

@[simp] theorem wrfmtState_res : (wrfmtState s).res = s.res := rfl
@[simp] theorem wrfmtState_err : (wrfmtState s).err = s.err := rfl
@[simp] theorem wrfmtState_ecmd : (wrfmtState s).ecmd = s.ecmd := rfl
@[simp] theorem wrfmtState_ovf : (wrfmtState s).ovf = s.ovf := rfl
@[simp] theorem wrfmtState_level : (wrfmtState s).level = s.level := rfl
@[simp] theorem wrfmtState_version : (wrfmtState s).version = s.version := rfl
@[simp] theorem wrfmtState_mask : (wrfmtState s).mask = s.mask := rfl
@[simp] theorem wrfmtState_best : (wrfmtState s).best = s.best := rfl
@[simp] theorem wrfmtState_ilen : (wrfmtState s).ilen = s.ilen := rfl
@[simp] theorem wrfmtState_cwlen : (wrfmtState s).cwlen = s.cwlen := rfl
@[simp] theorem wrfmtState_pena : (wrfmtState s).pena = s.pena := rfl
@[simp] theorem wrfmtState_penb : (wrfmtState s).penb = s.penb := rfl
@[simp] theorem wrfmtState_penc : (wrfmtState s).penc = s.penc := rfl
@[simp] theorem wrfmtState_pen : (wrfmtState s).pen = s.pen := rfl
@[simp] theorem wrfmtState_p0 : (wrfmtState s).p0 = s.p0 := rfl
@[simp] theorem wrfmtState_p1 : (wrfmtState s).p1 = s.p1 := rfl
@[simp] theorem wrfmtState_p2 : (wrfmtState s).p2 = s.p2 := rfl
@[simp] theorem wrfmtState_p3 : (wrfmtState s).p3 = s.p3 := rfl
@[simp] theorem wrfmtState_ibuf : (wrfmtState s).ibuf = s.ibuf := rfl
@[simp] theorem wrfmtState_dbuf : (wrfmtState s).dbuf = s.dbuf := rfl
@[simp] theorem wrfmtState_ecbuf : (wrfmtState s).ecbuf = s.ecbuf := rfl
@[simp] theorem wrfmtState_cw : (wrfmtState s).cw = s.cw := rfl
@[simp] theorem wrfmtState_host : (wrfmtState s).host = s.host := rfl

end wrfmtState

section finalState
variable (s : State)

@[simp] theorem finalState_res : (finalState s).res = s.res := rfl
@[simp] theorem finalState_err : (finalState s).err = s.err := rfl
@[simp] theorem finalState_ecmd : (finalState s).ecmd = s.ecmd := rfl
@[simp] theorem finalState_ovf : (finalState s).ovf = s.ovf := rfl
@[simp] theorem finalState_level : (finalState s).level = s.level := rfl
@[simp] theorem finalState_version : (finalState s).version = s.version := rfl
@[simp] theorem finalState_best : (finalState s).best = s.best := rfl
@[simp] theorem finalState_ilen : (finalState s).ilen = s.ilen := rfl
@[simp] theorem finalState_cwlen : (finalState s).cwlen = s.cwlen := rfl
@[simp] theorem finalState_pena : (finalState s).pena = s.pena := rfl
@[simp] theorem finalState_penb : (finalState s).penb = s.penb := rfl
@[simp] theorem finalState_penc : (finalState s).penc = s.penc := rfl
@[simp] theorem finalState_pen : (finalState s).pen = s.pen := rfl
@[simp] theorem finalState_p0 : (finalState s).p0 = s.p0 := rfl
@[simp] theorem finalState_p1 : (finalState s).p1 = s.p1 := rfl
@[simp] theorem finalState_p2 : (finalState s).p2 = s.p2 := rfl
@[simp] theorem finalState_p3 : (finalState s).p3 = s.p3 := rfl
@[simp] theorem finalState_ibuf : (finalState s).ibuf = s.ibuf := rfl
@[simp] theorem finalState_dbuf : (finalState s).dbuf = s.dbuf := rfl
@[simp] theorem finalState_ecbuf : (finalState s).ecbuf = s.ecbuf := rfl
@[simp] theorem finalState_cw : (finalState s).cw = s.cw := rfl
@[simp] theorem finalState_host : (finalState s).host = s.host := rfl

end finalState

/-! The polynomial registers under the updates that do not write one. -/

@[simp] theorem State.setRes_poly (s : State) (v : Word) (p : PReg) : (s.setRes v).poly p = s.poly p := by cases p <;> rfl
@[simp] theorem State.raise_poly (c : FaultCode) (w : Word) (s : State) (p : PReg) : (s.raise c w).poly p = s.poly p := by cases p <;> rfl
@[simp] theorem ipushState_poly (b : Byte) (s : State) (p : PReg) : (ipushState b s).poly p = s.poly p := by cases p <;> rfl
@[simp] theorem selverState_poly (s : State) (p : PReg) : (selverState s).poly p = s.poly p := by cases p <;> rfl
@[simp] theorem packState_poly (s : State) (p : PReg) : (packState s).poly p = s.poly p := by cases p <;> rfl
@[simp] theorem ilvState_poly (s : State) (p : PReg) : (ilvState s).poly p = s.poly p := by cases p <;> rfl
@[simp] theorem buildState_poly (m : Nat) (s : State) (p : PReg) : (buildState m s).poly p = s.poly p := by cases p <;> rfl
@[simp] theorem scoreState_poly (s : State) (p : PReg) : (scoreState s).poly p = s.poly p := by cases p <;> rfl
@[simp] theorem trialState_poly (m : Nat) (s : State) (p : PReg) : (trialState m s).poly p = s.poly p := by cases p <;> rfl
@[simp] theorem wrfmtState_poly (s : State) (p : PReg) : (wrfmtState s).poly p = s.poly p := by cases p <;> rfl
@[simp] theorem finalState_poly (s : State) (p : PReg) : (finalState s).poly p = s.poly p := by cases p <;> rfl

/-! The trials of EVAL write what one trial writes. -/

@[simp] theorem trialsState_err (ms : List Nat) (s : State) : (trialsState ms s).err = s.err := by
  induction ms generalizing s with
  | nil => rfl
  | cons m ms ih => exact (ih (trialState m s)).trans (trialState_err m s)
@[simp] theorem trialsState_ecmd (ms : List Nat) (s : State) : (trialsState ms s).ecmd = s.ecmd := by
  induction ms generalizing s with
  | nil => rfl
  | cons m ms ih => exact (ih (trialState m s)).trans (trialState_ecmd m s)
@[simp] theorem trialsState_ovf (ms : List Nat) (s : State) : (trialsState ms s).ovf = s.ovf := by
  induction ms generalizing s with
  | nil => rfl
  | cons m ms ih => exact (ih (trialState m s)).trans (trialState_ovf m s)
@[simp] theorem trialsState_level (ms : List Nat) (s : State) : (trialsState ms s).level = s.level := by
  induction ms generalizing s with
  | nil => rfl
  | cons m ms ih => exact (ih (trialState m s)).trans (trialState_level m s)
@[simp] theorem trialsState_version (ms : List Nat) (s : State) : (trialsState ms s).version = s.version := by
  induction ms generalizing s with
  | nil => rfl
  | cons m ms ih => exact (ih (trialState m s)).trans (trialState_version m s)
@[simp] theorem trialsState_best (ms : List Nat) (s : State) : (trialsState ms s).best = s.best := by
  induction ms generalizing s with
  | nil => rfl
  | cons m ms ih => exact (ih (trialState m s)).trans (trialState_best m s)
@[simp] theorem trialsState_ilen (ms : List Nat) (s : State) : (trialsState ms s).ilen = s.ilen := by
  induction ms generalizing s with
  | nil => rfl
  | cons m ms ih => exact (ih (trialState m s)).trans (trialState_ilen m s)
@[simp] theorem trialsState_cwlen (ms : List Nat) (s : State) : (trialsState ms s).cwlen = s.cwlen := by
  induction ms generalizing s with
  | nil => rfl
  | cons m ms ih => exact (ih (trialState m s)).trans (trialState_cwlen m s)
@[simp] theorem trialsState_p0 (ms : List Nat) (s : State) : (trialsState ms s).p0 = s.p0 := by
  induction ms generalizing s with
  | nil => rfl
  | cons m ms ih => exact (ih (trialState m s)).trans (trialState_p0 m s)
@[simp] theorem trialsState_p1 (ms : List Nat) (s : State) : (trialsState ms s).p1 = s.p1 := by
  induction ms generalizing s with
  | nil => rfl
  | cons m ms ih => exact (ih (trialState m s)).trans (trialState_p1 m s)
@[simp] theorem trialsState_p2 (ms : List Nat) (s : State) : (trialsState ms s).p2 = s.p2 := by
  induction ms generalizing s with
  | nil => rfl
  | cons m ms ih => exact (ih (trialState m s)).trans (trialState_p2 m s)
@[simp] theorem trialsState_p3 (ms : List Nat) (s : State) : (trialsState ms s).p3 = s.p3 := by
  induction ms generalizing s with
  | nil => rfl
  | cons m ms ih => exact (ih (trialState m s)).trans (trialState_p3 m s)
@[simp] theorem trialsState_ibuf (ms : List Nat) (s : State) : (trialsState ms s).ibuf = s.ibuf := by
  induction ms generalizing s with
  | nil => rfl
  | cons m ms ih => exact (ih (trialState m s)).trans (trialState_ibuf m s)
@[simp] theorem trialsState_dbuf (ms : List Nat) (s : State) : (trialsState ms s).dbuf = s.dbuf := by
  induction ms generalizing s with
  | nil => rfl
  | cons m ms ih => exact (ih (trialState m s)).trans (trialState_dbuf m s)
@[simp] theorem trialsState_ecbuf (ms : List Nat) (s : State) : (trialsState ms s).ecbuf = s.ecbuf := by
  induction ms generalizing s with
  | nil => rfl
  | cons m ms ih => exact (ih (trialState m s)).trans (trialState_ecbuf m s)
@[simp] theorem trialsState_cw (ms : List Nat) (s : State) : (trialsState ms s).cw = s.cw := by
  induction ms generalizing s with
  | nil => rfl
  | cons m ms ih => exact (ih (trialState m s)).trans (trialState_cw m s)
@[simp] theorem trialsState_host (ms : List Nat) (s : State) : (trialsState ms s).host = s.host := by
  induction ms generalizing s with
  | nil => rfl
  | cons m ms ih => exact (ih (trialState m s)).trans (trialState_host m s)

section evalState
variable (s : State)

@[simp] theorem evalState_err : (evalState s).err = s.err := trialsState_err (List.range 8) s
@[simp] theorem evalState_ecmd : (evalState s).ecmd = s.ecmd := trialsState_ecmd (List.range 8) s
@[simp] theorem evalState_ovf : (evalState s).ovf = s.ovf := trialsState_ovf (List.range 8) s
@[simp] theorem evalState_level : (evalState s).level = s.level := trialsState_level (List.range 8) s
@[simp] theorem evalState_version : (evalState s).version = s.version := trialsState_version (List.range 8) s
@[simp] theorem evalState_ilen : (evalState s).ilen = s.ilen := trialsState_ilen (List.range 8) s
@[simp] theorem evalState_cwlen : (evalState s).cwlen = s.cwlen := trialsState_cwlen (List.range 8) s
@[simp] theorem evalState_p0 : (evalState s).p0 = s.p0 := trialsState_p0 (List.range 8) s
@[simp] theorem evalState_p1 : (evalState s).p1 = s.p1 := trialsState_p1 (List.range 8) s
@[simp] theorem evalState_p2 : (evalState s).p2 = s.p2 := trialsState_p2 (List.range 8) s
@[simp] theorem evalState_p3 : (evalState s).p3 = s.p3 := trialsState_p3 (List.range 8) s
@[simp] theorem evalState_ibuf : (evalState s).ibuf = s.ibuf := trialsState_ibuf (List.range 8) s
@[simp] theorem evalState_dbuf : (evalState s).dbuf = s.dbuf := trialsState_dbuf (List.range 8) s
@[simp] theorem evalState_ecbuf : (evalState s).ecbuf = s.ecbuf := trialsState_ecbuf (List.range 8) s
@[simp] theorem evalState_cw : (evalState s).cw = s.cw := trialsState_cw (List.range 8) s
@[simp] theorem evalState_host : (evalState s).host = s.host := trialsState_host (List.range 8) s

@[simp] theorem evalState_poly (p : PReg) : (evalState s).poly p = s.poly p := by
  cases p <;> simp [State.poly]

end evalState

/-- RSENC's effect writes ECBUF and nothing else (R264). -/
theorem rsencState_eq {s t : State} (h : rsencState s = .ok t) :
    ∃ es, ecBytes s.dbuf (withOffsets 0 (blocks s.version.toNat s.level)) = .ok es ∧
      t = { s with ecbuf := s.ecbuf.writeBlock 0 es } := by
  unfold rsencState at h
  split at h
  · cases h
  · next es hes => exact ⟨es, hes, (Except.ok.inj h).symm⟩

/-- FAULT reads ERR alone (R13). -/
theorem State.faulted_eq_false_iff (s : State) : s.faulted = false ↔ s.err = 0 := by
  simp [State.faulted]

theorem State.faulted_eq_true_iff (s : State) : s.faulted = true ↔ s.err ≠ 0 := by
  simp [State.faulted]

/-- A fault code is never 0, so fault entry always enters the FAULT state (R236, R240). -/
theorem FaultCode.code_ne_zero (c : FaultCode) : c.code ≠ 0 := by cases c <;> decide

end Sys2Proof.Machine
end

