-- ==== Sys2Proof/Laws/Ops.lean ====
section
/-! SUPPORT. What each shared operation can do, said once: `command`, `inRange`, `storePoly`, the buffer operations with
their canonical form, the matrix operations. -/
namespace Sys2Proof.Machine

section command
variable {w : Word} {s t : State} {f : State → Except FaultCode State}

/-- In the FAULT state a command is discarded (R241). -/
theorem command_of_faulted (h : s.err ≠ 0) : command w s f = .next s := by
  simp [command, (State.faulted_eq_true_iff s).2 h]

/-- A command whose effect raises nothing completes. -/
theorem command_of_ok (h : s.err = 0) (hf : f s = .ok t) : command w s f = .next t := by
  simp [command, (State.faulted_eq_false_iff s).2 h, hf]

/-- A command whose effect raises a fault makes the fault entry and no other change (R240). -/
theorem command_of_error {c : FaultCode} (h : s.err = 0) (hf : f s = .error c) :
    command w s f = .next (s.raise c w) := by
  simp [command, (State.faulted_eq_false_iff s).2 h, hf]

/-- Everything a command can do: discarded, complete, or fault entry (R241). -/
theorem command_cases (h : command w s f = .next t) :
    (s.err ≠ 0 ∧ t = s) ∨ (s.err = 0 ∧ f s = .ok t) ∨ (s.err = 0 ∧ ∃ c, f s = .error c ∧ t = s.raise c w) := by
  by_cases he : s.err = 0
  · cases hf : f s with
    | ok u =>
      rw [command_of_ok he hf] at h
      exact .inr (.inl ⟨he, congrArg Except.ok (Host.Outcome.next.inj h)⟩)
    | error c =>
      rw [command_of_error he hf] at h
      exact .inr (.inr ⟨he, c, rfl, (Host.Outcome.next.inj h).symm⟩)
  · rw [command_of_faulted he] at h
    exact .inl ⟨he, (Host.Outcome.next.inj h).symm⟩

/-- Every command answers a next state. -/
theorem command_next (w : Word) (s : State) (f : State → Except FaultCode State) : ∃ t, command w s f = .next t := by
  by_cases he : s.err = 0
  · cases hf : f s with
    | ok u => exact ⟨u, command_of_ok he hf⟩
    | error c => exact ⟨_, command_of_error he hf⟩
  · exact ⟨s, command_of_faulted he⟩

end command

/-- A range check that passes leaves the effect; one that fails raises E_RANGE. -/
theorem inRange_true (t : State) : inRange true t = .ok t := rfl

theorem inRange_false (t : State) : inRange false t = .error .range := rfl

theorem inRange_eq_ok {b : Bool} {t u : State} : inRange b t = .ok u ↔ b = true ∧ t = u := by
  cases b <;> simp [inRange]

theorem inRange_eq_error {b : Bool} {t : State} {c : FaultCode} : inRange b t = .error c ↔ b = false ∧ c = .range := by
  cases b <;> simp [inRange, eq_comm]

theorem storePoly_eq_ok {s t : State} {p : PReg} {r : Except FaultCode (List Byte)} :
    storePoly s p r = .ok t ↔ ∃ v, r = .ok v ∧ t = s.setPoly p v := by
  cases r <;> simp [storePoly, eq_comm]

theorem storePoly_eq_error {s : State} {p : PReg} {r : Except FaultCode (List Byte)} {c : FaultCode} :
    storePoly s p r = .error c ↔ r = .error c := by
  cases r <;> simp [storePoly]

/-! The buffers. -/

theorem Memory.read_eq_zero_of_forall {m : Memory} {j : Nat} (h : ∀ c ∈ m, c.1 ≠ j) : Memory.read m j = 0 := by
  induction m with
  | nil => rfl
  | cons c m ih =>
    rw [Memory.read, if_neg (h c (by simp))]
    exact ih fun d hd => h d (by simp [hd])

theorem Memory.read_append_of_forall {m : Memory} {j : Nat} (h : ∀ c ∈ m, c.1 ≠ j) (n : Memory) :
    Memory.read (m ++ n) j = Memory.read n j := by
  induction m with
  | nil => rfl
  | cons c m ih =>
    rw [List.cons_append, Memory.read, if_neg (h c (by simp))]
    exact ih fun d hd => h d (by simp [hd])

theorem Memory.read_append_of_exists {m : Memory} {j : Nat} (h : ∃ c ∈ m, c.1 = j) (n : Memory) :
    Memory.read (m ++ n) j = Memory.read m j := by
  induction m with
  | nil => simp at h
  | cons c m ih =>
    rw [List.cons_append, Memory.read, Memory.read]
    split
    · rfl
    · next hc =>
      obtain ⟨d, hd, he⟩ := h
      rcases List.mem_cons.1 hd with rfl | hd
      · exact absurd he hc
      · exact ih ⟨d, hd, he⟩

theorem Memory.read_filter (m : Memory) (q : Nat → Bool) (j : Nat) :
    Memory.read (m.filter (fun c => q c.1)) j = if q j then Memory.read m j else 0 := by
  induction m with
  | nil => simp [Memory.read]
  | cons c m ih =>
    rw [List.filter_cons]
    by_cases hc : c.1 = j
    · subst hc
      by_cases hq : q c.1
      · simp [Memory.read, hq]
      · simpa [hq] using ih
    · by_cases hq : q c.1
      · simpa [Memory.read, hc, hq] using ih
      · simpa [Memory.read, hc, hq] using ih

theorem Memory.mem_entries {start : Nat} {bs : List Byte} {c : Host.Cell} (h : c ∈ Memory.entries start bs) :
    start ≤ c.1 ∧ c.1 < start + bs.length ∧ c.2 ≠ 0 := by
  induction bs generalizing start with
  | nil => simp [Memory.entries] at h
  | cons b bs ih =>
    simp only [Memory.entries] at h
    simp only [List.length_cons]
    split at h
    · obtain ⟨h1, h2, h3⟩ := ih h
      exact ⟨by omega, by omega, h3⟩
    · next hb =>
      rcases List.mem_cons.1 h with h | h
      · subst h
        exact ⟨Nat.le_refl _, by simp, hb⟩
      · obtain ⟨h1, h2, h3⟩ := ih h
        exact ⟨by omega, by omega, h3⟩

theorem Memory.read_entries (start : Nat) (bs : List Byte) (j : Nat) :
    Memory.read (Memory.entries start bs) j = if start ≤ j then bs.getD (j - start) 0 else 0 := by
  induction bs generalizing start with
  | nil => simp [Memory.entries, Memory.read]
  | cons b bs ih =>
    have key : (if start + 1 ≤ j then bs.getD (j - (start + 1)) 0 else 0) =
        if start = j then 0 else if start ≤ j then (b :: bs).getD (j - start) 0 else 0 := by
      by_cases h1 : start + 1 ≤ j
      · have : j - start = (j - (start + 1)) + 1 := by omega
        rw [if_pos h1, if_neg (by omega), if_pos (by omega), this]; simp
      · by_cases h2 : start = j
        · rw [if_neg h1, if_pos h2]
        · rw [if_neg h1, if_neg h2, if_neg (by omega)]
    simp only [Memory.entries]
    by_cases hb : b = 0
    · rw [if_pos hb, ih, key]
      by_cases h2 : start = j
      · subst h2; simp [hb]
      · rw [if_neg h2]
    · rw [if_neg hb]
      simp only [Memory.read]
      by_cases h2 : start = j
      · subst h2; simp
      · rw [if_neg h2, ih, key, if_neg h2]

/-- A block write writes its block and nothing else (R24 to R26, R51). -/
@[simp] theorem Memory.read_writeBlock (m : Memory) (start : Nat) (bs : List Byte) (j : Nat) :
    (m.writeBlock start bs).read j =
      if start ≤ j ∧ j < start + bs.length then bs.getD (j - start) 0 else m.read j := by
  have hlo := Memory.read_filter m (fun i => decide (i < start)) j
  have hhi := Memory.read_filter m (fun i => decide (start + bs.length ≤ i)) j
  have hmid := Memory.read_entries start bs j
  have blo : ∀ c ∈ m.filter (fun c => decide (c.1 < start)), c.1 < start := fun c hc => by
    simpa using (List.mem_filter.1 hc).2
  have bhi : ∀ c ∈ m.filter (fun c => decide (start + bs.length ≤ c.1)), start + bs.length ≤ c.1 := fun c hc => by
    simpa using (List.mem_filter.1 hc).2
  unfold Memory.writeBlock
  rw [List.append_assoc]
  rcases Nat.lt_or_ge j start with h1 | h1
  · rw [if_neg (by omega)]
    have rest : ∀ c ∈ Memory.entries start bs ++ m.filter (fun c => decide (start + bs.length ≤ c.1)), c.1 ≠ j := by
      intro c hc
      rcases List.mem_append.1 hc with hc | hc
      · have := Memory.mem_entries hc
        omega
      · have := bhi c hc
        omega
    rw [if_pos (by simpa using h1)] at hlo
    by_cases he : ∃ c ∈ m.filter (fun c => decide (c.1 < start)), c.1 = j
    · rw [Memory.read_append_of_exists he, hlo]
    · have he' : ∀ c ∈ m.filter (fun c => decide (c.1 < start)), c.1 ≠ j := fun c hc h => he ⟨c, hc, h⟩
      rw [Memory.read_append_of_forall he', Memory.read_eq_zero_of_forall rest, ← hlo,
        Memory.read_eq_zero_of_forall he']
  · rw [Memory.read_append_of_forall (fun c hc => by have := blo c hc; omega)]
    rcases Nat.lt_or_ge j (start + bs.length) with h2 | h2
    · rw [if_pos ⟨h1, h2⟩]
      rw [if_pos h1] at hmid
      by_cases he : ∃ c ∈ Memory.entries start bs, c.1 = j
      · rw [Memory.read_append_of_exists he, hmid]
      · have he' : ∀ c ∈ Memory.entries start bs, c.1 ≠ j := fun c hc h => he ⟨c, hc, h⟩
        rw [Memory.read_append_of_forall he', Memory.read_eq_zero_of_forall (fun c hc => by have := bhi c hc; omega),
          ← hmid, Memory.read_eq_zero_of_forall he']
    · rw [if_neg (by omega), Memory.read_append_of_forall (fun c hc => by have := Memory.mem_entries hc; omega), hhi,
        if_pos (by simpa using h2)]

/-- A read returns the latest write to that cell (R51). -/
@[simp] theorem Memory.read_write (m : Memory) (i : Nat) (b : Byte) (j : Nat) :
    (m.write i b).read j = if j = i then b else m.read j := by
  rw [Memory.write, Memory.read_writeBlock]
  by_cases h : j = i
  · subst h; simp
  · rw [if_neg h, if_neg (by simp; omega)]

@[simp] theorem Memory.read_nil (j : Nat) : Memory.read [] j = 0 := rfl

@[simp] theorem Memory.wf_nil : Memory.wf [] := ⟨List.Pairwise.nil, by simp⟩

theorem Memory.pairwise_entries (start : Nat) (bs : List Byte) :
    (Memory.entries start bs).Pairwise (fun a b => a.1 < b.1) := by
  induction bs generalizing start with
  | nil => exact List.Pairwise.nil
  | cons b bs ih =>
    simp only [Memory.entries]
    split
    · exact ih _
    · refine List.Pairwise.cons (fun c hc => ?_) (ih _)
      have := Memory.mem_entries hc
      show start < c.1
      omega

/-- A block write keeps the canonical form. -/
theorem Memory.wf_writeBlock {m : Memory} (h : m.wf) (start : Nat) (bs : List Byte) : (m.writeBlock start bs).wf := by
  refine ⟨?_, ?_⟩
  · unfold Memory.writeBlock
    rw [List.append_assoc, List.pairwise_append, List.pairwise_append]
    refine ⟨h.1.filter _, ⟨Memory.pairwise_entries _ _, h.1.filter _, ?_⟩, ?_⟩
    · intro a ha b hb
      have h1 := Memory.mem_entries ha
      have h2 := (List.mem_filter.1 hb).2
      simp at h2
      omega
    · intro a ha b hb
      have h1 := (List.mem_filter.1 ha).2
      simp at h1
      rcases List.mem_append.1 hb with hb | hb
      · have h2 := Memory.mem_entries hb
        omega
      · have h2 := (List.mem_filter.1 hb).2
        simp at h2
        omega
  · intro c hc
    unfold Memory.writeBlock at hc
    rcases List.mem_append.1 hc with hc | hc
    · rcases List.mem_append.1 hc with hc | hc
      · exact h.2 c (List.mem_filter.1 hc).1
      · exact (Memory.mem_entries hc).2.2
    · exact h.2 c (List.mem_filter.1 hc).1

/-- A one-cell write keeps the canonical form. -/
theorem Memory.wf_write {m : Memory} (h : m.wf) (i : Nat) (b : Byte) : (m.write i b).wf := Memory.wf_writeBlock h i [b]

/-- A block write inside the buffer stays inside it. -/
theorem Memory.below_writeBlock {n : Nat} {m : Memory} (h : m.Below n) {start : Nat} {bs : List Byte}
    (hb : start + bs.length ≤ n) : (m.writeBlock start bs).Below n := by
  intro c hc
  unfold Memory.writeBlock at hc
  rcases List.mem_append.1 hc with hc | hc
  · rcases List.mem_append.1 hc with hc | hc
    · exact h c (List.mem_filter.1 hc).1
    · have := Memory.mem_entries hc
      omega
  · exact h c (List.mem_filter.1 hc).1

theorem Memory.holds_writeBlock {n : Nat} {m : Memory} (h : m.Holds n) {start : Nat} {bs : List Byte}
    (hb : start + bs.length ≤ n) : (m.writeBlock start bs).Holds n :=
  ⟨Memory.wf_writeBlock h.1 start bs, Memory.below_writeBlock h.2 hb⟩

theorem Memory.holds_write {n : Nat} {m : Memory} (h : m.Holds n) {i : Nat} (hi : i < n) (b : Byte) :
    (m.write i b).Holds n := Memory.holds_writeBlock h (by simpa using hi)

@[simp] theorem Memory.length_slice (m : Memory) (start n : Nat) : (m.slice start n).length = n := by
  simp [Memory.slice]

theorem Memory.getD_slice (m : Memory) (start n k : Nat) (h : k < n) : (m.slice start n).getD k 0 = m.read (start + k) := by
  simp [Memory.slice, h]

/-- Two canonical buffers that read alike are the same data. -/
theorem Memory.read_of_mem {m : Memory} (h : m.wf) {c : Host.Cell} (hc : c ∈ m) : m.read c.1 = c.2 := by
  induction m with
  | nil => simp at hc
  | cons d m ih =>
    obtain ⟨hp, hz⟩ := h
    rw [List.pairwise_cons] at hp
    rcases List.mem_cons.1 hc with rfl | hc
    · simp [Memory.read]
    · have := hp.1 c hc
      rw [Memory.read, if_neg (by omega)]
      exact ih ⟨hp.2, fun e he => hz e (by simp [he])⟩ hc

/-! The matrix. -/

/-- The cells of a tabulated matrix. -/
@[simp] theorem Matrix.read_tabulate (f : Nat → Nat → Module) (r c : Nat) :
    (Matrix.tabulate f).read r c = if r < 57 ∧ c < 57 then f r c else .unset := by
  unfold Matrix.read Matrix.tabulate
  split
  · simp
  · rfl

/-- An overwrite changes the listed cells and nothing else. -/
theorem Matrix.read_overwrite (m : Matrix) (ws : List ((Nat × Nat) × Module)) (r c : Nat) (h : r < 57 ∧ c < 57) :
    (m.overwrite ws).read r c = match ws.find? (fun w => w.1 == (r, c)) with
      | some w => w.2
      | none => m.read r c :=
    (Matrix.read_tabulate _ r c).trans (if_pos h)

/-- Outside 57 × 57 there is no cell. -/
theorem Matrix.read_outside (m : Matrix) {r c : Nat} (h : ¬(r < 57 ∧ c < 57)) : m.read r c = .unset := by
  simp [Matrix.read, h]

/-- Two matrices that read alike are the same data. -/
theorem Matrix.ext_read {m n : Matrix} (h : ∀ r c, r < 57 → c < 57 → m.read r c = n.read r c) : m = n := by
  apply Vector.ext
  intro r hr
  apply Vector.ext
  intro c hc
  have := h r c hr hc
  simpa [Matrix.read, hr, hc] using this

end Sys2Proof.Machine
end

