-- ==== Sys2Proof/Laws/Field.lean ====
section
/-! SUPPORT. The tables agree with the recurrence and with each other (R80 to R82), and what gexp, glog and the term unit
answer (R83, R84, R93). -/
namespace Sys2Proof.Machine

/-- The first eight entries are the powers of two (R80). -/
theorem expEntry_seed : ∀ i < 8, expEntry i = BitVec.ofNat 8 (2 ^ i) := by decide +kernel

/-- The recurrence of R80 on the printed values. -/
theorem expEntry_recurrence : ∀ k < 248,
    expEntry (k + 8) = expEntry (k + 4) ^^^ expEntry (k + 3) ^^^ expEntry (k + 2) ^^^ expEntry k := by decide +kernel

/-- `EXP[LOG[v]] = v` for every v in 1..255, and LOG[v] ≤ 254 (R82(e), R84). -/
theorem expEntry_logEntry : ∀ v < 255, logEntry (v + 1) < 255 ∧ expEntry (logEntry (v + 1)) = BitVec.ofNat 8 (v + 1) := by
  decide +kernel

/-- `LOG[EXP[i]] = i` for every i in 0..254 (R82(e)). -/
theorem logEntry_expEntry : ∀ i < 255, logEntry (expEntry i).toNat = i := by decide +kernel

/-- No entry of EXP is 0 (R82(d)). -/
theorem expEntry_ne_zero : ∀ i < 256, expEntry i ≠ 0 := by decide +kernel

theorem toNat_pred_of_ne_zero {v : Byte} (h : v ≠ 0) : ∃ k < 255, v.toNat = k + 1 := by
  have h1 := v.isLt
  have h2 : v.toNat ≠ 0 := fun h0 => h (BitVec.eq_of_toNat_eq (by simpa using h0))
  exact ⟨v.toNat - 1, by omega, by omega⟩

/-- A logarithm lies in 0..254 (R84). -/
theorem logEntry_lt {v : Byte} (h : v ≠ 0) : logEntry v.toNat < 255 := by
  obtain ⟨k, hk, e⟩ := toNat_pred_of_ne_zero h
  rw [e]
  exact (expEntry_logEntry k hk).1

/-- gexp undoes the logarithm (R82(e), R83). -/
theorem gexp_logEntry {v : Byte} (h : v ≠ 0) : gexp (logEntry v.toNat : Int) = v := by
  have hlt := logEntry_lt h
  obtain ⟨k, hk, e⟩ := toNat_pred_of_ne_zero h
  have hm : ((logEntry v.toNat : Int) % 255).toNat = logEntry v.toNat := by omega
  rw [gexp, hm, e, (expEntry_logEntry k hk).2, ← e]
  simp

/-- gexp is periodic (R83). -/
theorem gexp_add_period (n : Int) : gexp (n + 255) = gexp n := by
  simp [gexp]

/-- `GEXP n` is never 0. -/
theorem gexp_ne_zero (n : Int) : gexp n ≠ 0 := expEntry_ne_zero _ (by omega)

theorem glog_zero : glog 0 = .error .domain := rfl

@[simp] theorem glog_zero_lit : glog 0#8 = .error .domain := rfl

theorem glog_of_ne_zero {v : Byte} (h : v ≠ 0) : glog v = .ok (logEntry v.toNat) := if_neg h

theorem glog_eq_ok {v : Byte} {k : Nat} : glog v = .ok k ↔ v ≠ 0 ∧ k = logEntry v.toNat := by
  by_cases h : v = 0
  · rw [h, glog_zero]
    exact ⟨fun e => (nomatch e), fun e => absurd rfl e.1⟩
  · rw [glog_of_ne_zero h]
    exact ⟨fun e => ⟨h, (Except.ok.inj e).symm⟩, fun e => congrArg _ e.2.symm⟩

/-- glog raises E_DOMAIN, for 0 only (R84). -/
theorem glog_eq_error {v : Byte} {c : FaultCode} : glog v = .error c ↔ v = 0 ∧ c = .domain := by
  by_cases h : v = 0
  · rw [h, glog_zero]
    exact ⟨fun e => ⟨rfl, (Except.error.inj e).symm⟩, fun e => congrArg _ e.2.symm⟩
  · rw [glog_of_ne_zero h]
    exact ⟨fun e => (nomatch e), fun e => absurd e.1 h⟩

/-- The term unit: E_DOMAIN exactly for a zero factor (R93). -/
theorem gterm_eq (u v : Byte) :
    gterm u v = if u = 0 ∨ v = 0 then .error .domain else .ok (gexp ((logEntry u.toNat : Int) + logEntry v.toNat)) := by
  unfold gterm
  by_cases hu : u = 0
  · rw [if_pos (.inl hu), hu, glog_zero]
  · rw [glog_of_ne_zero hu]
    by_cases hv : v = 0
    · rw [if_pos (.inr hv), hv, glog_zero]
    · rw [if_neg (by simp only [hu, hv, or_self, not_false_eq_true]), glog_of_ne_zero hv]

theorem gscale_eq (u : Byte) (r : Int) :
    gscale u r = if u = 0 then .error .domain else .ok (gexp ((logEntry u.toNat : Int) + r)) := by
  unfold gscale
  by_cases hu : u = 0
  · rw [if_pos hu, hu, glog_zero]
  · rw [if_neg hu, glog_of_ne_zero hu]

end Sys2Proof.Machine
end

