-- ==== Sys2Proof/Laws/PerInstr.lean ====
section
/-! SUPPORT. For every command as syntax: its word holds its opcode in W[31:24] and its operand fields in W[23:0] (R61), with
one lemma per constructor. -/
namespace Sys2Proof.Laws.OpcodeField

open Sys2Proof

/-- The operand bits of a well-formed command fit W[23:0], and its word holds its opcode and its operand bits (R61, R63). -/
def Statement (i : Instr) : Prop :=
  i.wf = true → operandBits i < 2 ^ 24 ∧ field (encode i) 31 24 = opcodeOf i ∧ field (encode i) 23 0 = operandBits i

theorem opcodeOf_lt (i : Instr) : opcodeOf i < 256 := by cases i <;> simp [opcodeOf]

theorem number_lt (p : PReg) : p.number < 4 := by cases p <;> decide

/-- A word is its opcode and its operand bits as soon as these fit 24 bits. -/
theorem of_fits {i : Instr} (h : operandBits i < 2 ^ 24) : Statement i := by
  intro _
  have ho := opcodeOf_lt i
  have hw : (encode i).toNat = opcodeOf i * 2 ^ 24 + operandBits i := by
    unfold encode
    rw [BitVec.toNat_ofNat]
    omega
  refine ⟨h, ?_, ?_⟩ <;> unfold field <;> rw [hw] <;> omega

/-- The operand bits fit 24 bits by the bounds that well-formedness gives. -/
theorem of_wf {i : Instr} (h : i.wf = true → operandBits i < 2 ^ 24) : Statement i := fun hw => of_fits (h hw) hw

theorem nop : Statement .nop := of_fits (by decide)

theorem srst : Statement .srst := of_fits (by decide)

theorem rdcsr (n : Nat) : Statement (.rdcsr n) := of_wf fun hw => by
  simp only [Instr.wf, fitsImm8, decide_eq_true_eq] at hw
  simp only [operandBits]
  omega

theorem gexp (n : Int) : Statement (.gexp n) := of_wf fun hw => by
  simp only [Instr.wf, fitsSigned16, Bool.and_eq_true, decide_eq_true_eq] at hw
  simp only [operandBits, pattern16]
  omega

theorem glog (n : Byte) : Statement (.glog n) := of_wf fun _ => by
  have hn := n.isLt
  simp only [operandBits]
  omega

theorem rdexp (k : Nat) : Statement (.rdexp k) := of_wf fun hw => by
  simp only [Instr.wf, fitsImm8, decide_eq_true_eq] at hw
  simp only [operandBits]
  omega

theorem pclr (p : PReg) : Statement (.pclr p) := of_wf fun _ => by
  have hp := number_lt p
  simp only [operandBits]
  omega

theorem ppush (p : PReg) (c : Byte) : Statement (.ppush p c) := of_wf fun _ => by
  have hp := number_lt p
  have hc := c.isLt
  simp only [operandBits]
  omega

theorem pmul (pd : PReg) (pa : PReg) (pb : PReg) : Statement (.pmul pd pa pb) := of_wf fun _ => by
  have hpd := number_lt pd
  have hpa := number_lt pa
  have hpb := number_lt pb
  simp only [operandBits]
  omega

theorem pmod (pd : PReg) (pa : PReg) (pb : PReg) : Statement (.pmod pd pa pb) := of_wf fun _ => by
  have hpd := number_lt pd
  have hpa := number_lt pa
  have hpb := number_lt pb
  simp only [operandBits]
  omega

theorem pgen (p : PReg) (n : Nat) : Statement (.pgen p n) := of_wf fun hw => by
  have hp := number_lt p
  simp only [Instr.wf, fitsImm8, decide_eq_true_eq] at hw
  simp only [operandBits]
  omega

theorem plen (p : PReg) : Statement (.plen p) := of_wf fun _ => by
  have hp := number_lt p
  simp only [operandBits]
  omega

theorem pget (p : PReg) (k : Nat) : Statement (.pget p k) := of_wf fun hw => by
  have hp := number_lt p
  simp only [Instr.wf, fitsImm8, decide_eq_true_eq] at hw
  simp only [operandBits]
  omega

theorem iclr : Statement .iclr := of_fits (by decide)

theorem ipush (b : Byte) : Statement (.ipush b) := of_wf fun _ => by
  have hb := b.isLt
  simp only [operandBits]
  omega

theorem setlvl (c : Nat) : Statement (.setlvl c) := of_wf fun hw => by
  simp only [Instr.wf, fitsImm8, decide_eq_true_eq] at hw
  simp only [operandBits]
  omega

theorem setver (v : Nat) : Statement (.setver v) := of_wf fun hw => by
  simp only [Instr.wf, fitsImm8, decide_eq_true_eq] at hw
  simp only [operandBits]
  omega

theorem wrd (k : Nat) (b : Byte) : Statement (.wrd k b) := of_wf fun hw => by
  have hb := b.isLt
  simp only [Instr.wf, fitsIdx9, decide_eq_true_eq] at hw
  simp only [operandBits]
  omega

theorem selver : Statement .selver := of_fits (by decide)

theorem pack : Statement .pack := of_fits (by decide)

theorem rsenc : Statement .rsenc := of_fits (by decide)

theorem ilv : Statement .ilv := of_fits (by decide)

theorem build (m : Nat) : Statement (.build m) := of_wf fun hw => by
  simp only [Instr.wf, fitsImm8, decide_eq_true_eq] at hw
  simp only [operandBits]
  omega

theorem score : Statement .score := of_fits (by decide)

theorem eval : Statement .eval := of_fits (by decide)

theorem wrfmt : Statement .wrfmt := of_fits (by decide)

theorem final : Statement .final := of_fits (by decide)

theorem encode : Statement .encode := of_fits (by decide)

theorem fmt (d : Nat) : Statement (.fmt d) := of_wf fun hw => by
  simp only [Instr.wf, fitsImm8, decide_eq_true_eq] at hw
  simp only [operandBits]
  omega

theorem vinf (d : Nat) : Statement (.vinf d) := of_wf fun hw => by
  simp only [Instr.wf, fitsImm8, decide_eq_true_eq] at hw
  simp only [operandBits]
  omega

theorem rdi (k : Nat) : Statement (.rdi k) := of_wf fun hw => by
  simp only [Instr.wf, fitsIdx9, decide_eq_true_eq] at hw
  simp only [operandBits]
  omega

theorem rdd (k : Nat) : Statement (.rdd k) := of_wf fun hw => by
  simp only [Instr.wf, fitsIdx9, decide_eq_true_eq] at hw
  simp only [operandBits]
  omega

theorem rdec (k : Nat) : Statement (.rdec k) := of_wf fun hw => by
  simp only [Instr.wf, fitsIdx9, decide_eq_true_eq] at hw
  simp only [operandBits]
  omega

theorem rdcw (k : Nat) : Statement (.rdcw k) := of_wf fun hw => by
  simp only [Instr.wf, fitsIdx9, decide_eq_true_eq] at hw
  simp only [operandBits]
  omega

theorem rdmod (row : Nat) (col : Nat) : Statement (.rdmod row col) := of_wf fun hw => by
  simp only [Instr.wf, fitsIdx6, Bool.and_eq_true, decide_eq_true_eq] at hw
  simp only [operandBits]
  omega

/-- Every command. -/
theorem all (i : Instr) : Statement i := by
  cases i with
  | nop => exact OpcodeField.nop
  | srst => exact OpcodeField.srst
  | rdcsr n => exact OpcodeField.rdcsr n
  | gexp n => exact OpcodeField.gexp n
  | glog n => exact OpcodeField.glog n
  | rdexp k => exact OpcodeField.rdexp k
  | pclr p => exact OpcodeField.pclr p
  | ppush p c => exact OpcodeField.ppush p c
  | pmul pd pa pb => exact OpcodeField.pmul pd pa pb
  | pmod pd pa pb => exact OpcodeField.pmod pd pa pb
  | pgen p n => exact OpcodeField.pgen p n
  | plen p => exact OpcodeField.plen p
  | pget p k => exact OpcodeField.pget p k
  | iclr => exact OpcodeField.iclr
  | ipush b => exact OpcodeField.ipush b
  | setlvl c => exact OpcodeField.setlvl c
  | setver v => exact OpcodeField.setver v
  | wrd k b => exact OpcodeField.wrd k b
  | selver => exact OpcodeField.selver
  | pack => exact OpcodeField.pack
  | rsenc => exact OpcodeField.rsenc
  | ilv => exact OpcodeField.ilv
  | build m => exact OpcodeField.build m
  | score => exact OpcodeField.score
  | eval => exact OpcodeField.eval
  | wrfmt => exact OpcodeField.wrfmt
  | final => exact OpcodeField.final
  | encode => exact OpcodeField.encode
  | fmt d => exact OpcodeField.fmt d
  | vinf d => exact OpcodeField.vinf d
  | rdi k => exact OpcodeField.rdi k
  | rdd k => exact OpcodeField.rdd k
  | rdec k => exact OpcodeField.rdec k
  | rdcw k => exact OpcodeField.rdcw k
  | rdmod row col => exact OpcodeField.rdmod row col

end Sys2Proof.Laws.OpcodeField
end

