-- ==== Sys2Proof/Laws/Poly.lean ====
section
/-! SUPPORT. What strip, the elimination of pmod and pgen answer (R91, R96 to R98). -/
namespace Sys2Proof.Machine

theorem strip_cons_of_ne_zero {x : Byte} (h : x ≠ 0) (a : List Byte) : strip (x :: a) = x :: a :=
  List.dropWhile_cons_of_neg (by simpa using h)

/-- A zero in front is removed (R91). -/
@[simp] theorem strip_zero_cons (a : List Byte) : strip (0 :: a) = strip a := by simp [strip]

/-- strip returns a stripped sequence (R91). -/
theorem isStripped_strip (a : List Byte) : IsStripped (strip a) := by
  induction a with
  | nil => simp [strip]
  | cons x a ih =>
    by_cases h : x = 0
    · rw [h, strip_zero_cons]
      exact ih
    · rw [strip_cons_of_ne_zero h]
      intro e
      exact h (Option.some.inj e)

/-- A stripped sequence is left as it is (R91). -/
theorem strip_of_isStripped {a : List Byte} (h : IsStripped a) : strip a = a := by
  cases a with
  | nil => rfl
  | cons x a => exact strip_cons_of_ne_zero (fun hx => h (congrArg some hx)) a

theorem length_strip_le (a : List Byte) : (strip a).length ≤ a.length := (List.dropWhile_suffix _).length_le

theorem mem_of_mem_strip {a : List Byte} {x : Byte} (h : x ∈ strip a) : x ∈ a :=
  (List.dropWhile_suffix _).subset h

/-- One pass over a divisor without a zero coefficient raises nothing and keeps the length (R96, R97). -/
theorem elimRow_ok (ratio : Int) {a b : List Byte} (hb : ∀ y ∈ b, y ≠ 0) (hl : b.length ≤ a.length) :
    ∃ r, elimRow ratio a b = .ok r ∧ r.length = a.length := by
  induction b generalizing a with
  | nil => exact ⟨a, by simp [elimRow], rfl⟩
  | cons y b ih =>
    cases a with
    | nil => simp at hl
    | cons x a =>
      obtain ⟨r, hr, hlen⟩ := ih (a := a) (fun z hz => hb z (by simp [hz])) (by simpa using hl)
      refine ⟨(x ^^^ gexp ((logEntry y.toNat : Int) + ratio)) :: r, ?_, by simp [hlen]⟩
      simp only [elimRow, gscale_eq, if_neg (hb y (by simp)), hr]

/-- "in every pass gscale(b[0], ratio) = a[0], so a[0] becomes 0" (R97(a)): a pass with the leading ratio. -/
theorem elimRow_lead {x y : Byte} {a b : List Byte} (hx : x ≠ 0) (hb : ∀ z ∈ y :: b, z ≠ 0)
    (hl : (y :: b).length ≤ (x :: a).length) :
    ∃ r, leadRatio (x :: a) (y :: b) = .ok ((logEntry x.toNat : Int) - logEntry y.toNat) ∧
      elimRow ((logEntry x.toNat : Int) - logEntry y.toNat) (x :: a) (y :: b) = .ok (0 :: r) ∧ r.length = a.length := by
  have hy : y ≠ 0 := hb y (by simp)
  obtain ⟨r, hr, hlen⟩ := elimRow_ok ((logEntry x.toNat : Int) - logEntry y.toNat) (a := a) (b := b)
    (fun z hz => hb z (by simp [hz])) (by simpa using hl)
  refine ⟨r, ?_, ?_, hlen⟩
  · simp [leadRatio, glog_of_ne_zero hx, glog_of_ne_zero hy]
  · simp only [elimRow, gscale_eq, if_neg hy, hr]
    have : (logEntry y.toNat : Int) + ((logEntry x.toNat : Int) - logEntry y.toNat) = logEntry x.toNat := by omega
    rw [this, gexp_logEntry hx]
    simp

/-- The loop of pmod with enough fuel: no fault, and the result is stripped and shorter than the divisor (R97). -/
theorem pmodLoop_ok {b : List Byte} (hne : b ≠ []) (hb : ∀ y ∈ b, y ≠ 0) (fuel : Nat) {a : List Byte}
    (ha : IsStripped a) (hf : a.length ≤ fuel) :
    ∃ r, pmodLoop fuel a b = .ok r ∧ IsStripped r ∧ r.length < b.length := by
  induction fuel generalizing a with
  | zero =>
    have : a = [] := by simpa using hf
    subst this
    exact ⟨[], rfl, by simp, List.length_pos_iff.2 hne⟩
  | succ fuel ih =>
    rw [pmodLoop]
    split
    · next h => exact ⟨a, rfl, ha, h⟩
    · next h =>
      obtain ⟨y, b', rfl⟩ := List.exists_cons_of_ne_nil hne
      cases a with
      | nil => simp at h
      | cons x a =>
        have hx : x ≠ 0 := fun hx => ha (by simp [hx])
        obtain ⟨r, h1, h2, h3⟩ := elimRow_lead (a := a) hx hb (by omega)
        simp only [h1, h2, strip_zero_cons]
        refine ih (isStripped_strip r) ?_
        have := length_strip_le r
        simp only [List.length_cons] at hf
        omega

/-- pmod by a divisor without a zero coefficient never faults; the remainder is stripped and shorter (R97(b), (e)). -/
theorem pmod_ok {b : List Byte} (hne : b ≠ []) (hb : ∀ y ∈ b, y ≠ 0) (a : List Byte) :
    ∃ r, pmod a b = .ok r ∧ IsStripped r ∧ r.length < b.length := by
  have hs : strip b = b := strip_of_isStripped (by
    obtain ⟨y, b', rfl⟩ := List.exists_cons_of_ne_nil hne
    intro h
    exact hb y (by simp) (by simpa using h))
  rw [pmod, pmodStripped, hs, if_neg (by simpa using hne)]
  exact pmodLoop_ok hne hb _ (isStripped_strip a) (Nat.le_refl _)

/-- The generator polynomial for n has n + 1 coefficients, none of them 0. -/
def goodGenerator (n : Nat) : Bool :=
  match pgen n with
  | .ok g => g.length == n + 1 && g.all (· != 0)
  | .error _ => false

/-- The thirteen EC lengths the block table uses (R132(f)). -/
def ecLengths : List Nat := [7, 10, 13, 15, 16, 17] ++ [18, 20, 22, 24] ++ [26, 28, 30]

theorem goodGenerator_small : ∀ n ∈ [7, 10, 13, 15, 16, 17], goodGenerator n = true := by decide +kernel

theorem goodGenerator_middle : ∀ n ∈ [18, 20, 22, 24], goodGenerator n = true := by decide +kernel

theorem goodGenerator_large : ∀ n ∈ [26, 28, 30], goodGenerator n = true := by decide +kernel

/-- No generator polynomial that the block table uses has a zero coefficient (R107, R135). -/
theorem pgen_ecLengths {n : Nat} (h : n ∈ ecLengths) : ∃ g, pgen n = .ok g ∧ g.length = n + 1 ∧ ∀ y ∈ g, y ≠ 0 := by
  have hg : goodGenerator n = true := by
    simp only [ecLengths, List.mem_append] at h
    obtain (h | h) | h := h
    · exact goodGenerator_small n h
    · exact goodGenerator_middle n h
    · exact goodGenerator_large n h
  unfold goodGenerator at hg
  cases e : pgen n with
  | error c => simp [e] at hg
  | ok g => exact ⟨g, rfl, by simpa [e] using hg⟩

/-- The EC codewords of a block always exist, ecCount of them (R135, R137). -/
theorem ecCodewords_ok (d : List Byte) {n : Nat} (h : n ∈ ecLengths) : ∃ e, ecCodewords d n = .ok e ∧ e.length = n := by
  obtain ⟨g, hg, hl, hz⟩ := pgen_ecLengths h
  obtain ⟨r, hr, -, hlt⟩ := pmod_ok (by rintro rfl; simp at hl) hz (d ++ zeros n)
  refine ⟨rightAlign n r, by simp [ecCodewords, hg, hr], ?_⟩
  simp [rightAlign, zeros]
  omega

/-- Every block of every (version, level) has one of the thirteen EC lengths (R132(f)). -/
theorem blocks_ec_mem : ∀ v ∈ List.range 11, ∀ l : BitVec 2, ∀ b ∈ blocks v l, b.ec ∈ ecLengths := by decide +kernel

theorem withOffsets_fst {off : Nat} {bs : List RSBlock} {p : RSBlock × Nat} (h : p ∈ withOffsets off bs) : p.1 ∈ bs := by
  induction bs generalizing off with
  | nil => simp [withOffsets] at h
  | cons b bs ih =>
    simp only [withOffsets, List.mem_cons] at h
    obtain rfl | h := h
    · simp
    · exact List.mem_cons_of_mem _ (ih h)

theorem ecBytes_ok (dbuf : Memory) {bs : List (RSBlock × Nat)} (h : ∀ p ∈ bs, p.1.ec ∈ ecLengths) :
    ∃ es, ecBytes dbuf bs = .ok es := by
  induction bs with
  | nil => exact ⟨[], rfl⟩
  | cons p bs ih =>
    obtain ⟨e, he, -⟩ := ecCodewords_ok (dbuf.slice p.2 p.1.data) (h p (by simp))
    obtain ⟨es, hes⟩ := ih fun q hq => h q (List.mem_cons_of_mem _ hq)
    exact ⟨e ++ es, by simp [ecBytes, he, hes]⟩

/-- RSENC's effect never faults (R135); for a version that the table does not have, it has no block to encode. -/
theorem rsencState_ok (s : State) : ∃ t, rsencState s = .ok t := by
  have hb : ∀ b ∈ blocks s.version.toNat s.level, b.ec ∈ ecLengths := by
    by_cases hv : s.version.toNat < 11
    · exact blocks_ec_mem _ (by simpa using hv) _
    · have : blocks s.version.toNat s.level = [] := by
        unfold blocks
        have h11 : 11 ≤ s.version.toNat := by omega
        obtain ⟨k, hk⟩ := Nat.exists_eq_add_of_le h11
        rw [hk, Nat.add_comm]
        split <;> rfl
      simp [this]
  obtain ⟨es, hes⟩ := ecBytes_ok s.dbuf (bs := withOffsets 0 (blocks s.version.toNat s.level))
    fun p hp => hb _ (withOffsets_fst hp)
  exact ⟨_, by rw [rsencState, hes]⟩

end Sys2Proof.Machine
end

