-- ==== Sys2Proof/Laws/Step.lean ====
section
/-! SUPPORT. What exec and a step can do, said once: every command but SRST is `command` around its own effect; a step is idle,
a reset, or the acceptance of a word (R52, R65, R241, R260). -/
namespace Sys2Proof.Machine

variable {i : Instr} {s t : State} {w : Word} {p : PortIn} {rest : List PortIn}

/-- SRST is the reset transition (R206). -/
theorem exec_srst (s : State) : exec .srst s = .next s.toReset := rfl

/-- Every command but SRST has the one shape: gated, then its effect, whole or not at all (R240, R241). -/
theorem exec_is_command (h : i ≠ .srst) : ∃ f, ∀ s, exec i s = command (encode i) s f := by
  cases i with
  | nop => exact ⟨_, execNop.eq_1⟩
  | srst => exact absurd rfl h
  | rdcsr n => exact ⟨_, execRdcsr.eq_1 n⟩
  | gexp n => exact ⟨_, execGexp.eq_1 n⟩
  | glog n => exact ⟨_, execGlog.eq_1 n⟩
  | rdexp k => exact ⟨_, execRdexp.eq_1 k⟩
  | pclr p => exact ⟨_, execPclr.eq_1 p⟩
  | ppush p c => exact ⟨_, execPpush.eq_1 p c⟩
  | pmul pd pa pb => exact ⟨_, execPmul.eq_1 pd pa pb⟩
  | pmod pd pa pb => exact ⟨_, execPmod.eq_1 pd pa pb⟩
  | pgen p n => exact ⟨_, execPgen.eq_1 p n⟩
  | plen p => exact ⟨_, execPlen.eq_1 p⟩
  | pget p k => exact ⟨_, execPget.eq_1 p k⟩
  | iclr => exact ⟨_, execIclr.eq_1⟩
  | ipush b => exact ⟨_, execIpush.eq_1 b⟩
  | setlvl c => exact ⟨_, execSetlvl.eq_1 c⟩
  | setver v => exact ⟨_, execSetver.eq_1 v⟩
  | wrd k b => exact ⟨_, execWrd.eq_1 k b⟩
  | selver => exact ⟨_, execSelver.eq_1⟩
  | pack => exact ⟨_, execPack.eq_1⟩
  | rsenc => exact ⟨_, execRsenc.eq_1⟩
  | ilv => exact ⟨_, execIlv.eq_1⟩
  | build m => exact ⟨_, execBuild.eq_1 m⟩
  | score => exact ⟨_, execScore.eq_1⟩
  | eval => exact ⟨_, execEval.eq_1⟩
  | wrfmt => exact ⟨_, execWrfmt.eq_1⟩
  | final => exact ⟨_, execFinal.eq_1⟩
  | encode => exact ⟨_, execEncode.eq_1⟩
  | fmt d => exact ⟨_, execFmt.eq_1 d⟩
  | vinf d => exact ⟨_, execVinf.eq_1 d⟩
  | rdi k => exact ⟨_, execRdi.eq_1 k⟩
  | rdd k => exact ⟨_, execRdd.eq_1 k⟩
  | rdec k => exact ⟨_, execRdec.eq_1 k⟩
  | rdcw k => exact ⟨_, execRdcw.eq_1 k⟩
  | rdmod row col => exact ⟨_, execRdmod.eq_1 row col⟩

/-- A next state of a command but SRST: discarded, complete, or the fault entry with its own word. -/
theorem exec_cases (hi : i ≠ .srst) (h : exec i s = .next t) :
    ∃ f, (∀ u, exec i u = command (encode i) u f) ∧
      ((s.err ≠ 0 ∧ t = s) ∨ (s.err = 0 ∧ f s = .ok t) ∨ (s.err = 0 ∧ ∃ c, f s = .error c ∧ t = s.raise c (encode i))) := by
  obtain ⟨f, hf⟩ := exec_is_command hi
  exact ⟨f, hf, command_cases ((hf s).symm.trans h)⟩

/-- In the FAULT state every word but SRST is discarded (R241). -/
theorem acceptWord_of_faulted (he : s.err ≠ 0) (hw : w ≠ srstWord) : acceptWord w s = .next s := by
  simp [acceptWord, (State.faulted_eq_true_iff s).2 he, hw]

/-- A running block raises E_ILLEGAL for a word that does not decode (R64). -/
theorem acceptWord_of_error {e : DecodeError} (he : s.err = 0) (hd : decode w = .error e) :
    acceptWord w s = .next (s.raise .illegal w) := by
  simp [acceptWord, (State.faulted_eq_false_iff s).2 he, hd]

/-- A running block runs the command that the word decodes to (R52). -/
theorem acceptWord_of_ok (he : s.err = 0) (hd : decode w = .ok i) : acceptWord w s = exec i s := by
  simp [acceptWord, (State.faulted_eq_false_iff s).2 he, hd]

theorem acceptWord_srst (s : State) : acceptWord srstWord s = .next s.toReset := by
  have hd : decode srstWord = .ok .srst := by decide
  simp [acceptWord, hd, exec_srst]

theorem samplePorts_rst (h : p.rst = true) : samplePorts p s = .next s.toReset := by simp [samplePorts, h]

theorem samplePorts_idle (h : p.rst = false) (hv : p.cmdValid = false) : samplePorts p s = .next s := by
  simp [samplePorts, h, hv]

theorem samplePorts_word (h : p.rst = false) (hv : p.cmdValid = true) : samplePorts p s = acceptWord p.cmdWord s := by
  simp [samplePorts, h, hv]

theorem step_nil (h : s.host = []) : step s = .next s := by simp [step, nextStep, h]

theorem step_cons (h : s.host = p :: rest) : step s = samplePorts p { s with host := rest } := by simp [step, nextStep, h]

/-- What a step is: nothing to sample; reset; an idle entry; the acceptance of a word. -/
theorem step_cases (s : State) :
    (s.host = [] ∧ step s = .next s) ∨
    ∃ p rest, s.host = p :: rest ∧
      ((p.rst = true ∧ step s = .next (State.toReset { s with host := rest })) ∨
        (p.rst = false ∧ p.cmdValid = false ∧ step s = .next { s with host := rest }) ∨
        (p.rst = false ∧ p.cmdValid = true ∧ step s = acceptWord p.cmdWord { s with host := rest })) := by
  cases h : s.host with
  | nil => exact .inl ⟨rfl, step_nil h⟩
  | cons p rest =>
    refine .inr ⟨p, rest, rfl, ?_⟩
    rw [step_cons h]
    cases hr : p.rst
    · cases hv : p.cmdValid
      · exact .inr (.inl ⟨rfl, rfl, samplePorts_idle hr hv⟩)
      · exact .inr (.inr ⟨rfl, rfl, samplePorts_word hr hv⟩)
    · exact .inl ⟨rfl, samplePorts_rst hr⟩

end Sys2Proof.Machine
end

