-- ==== Sys2Proof/Tests/Slice0.lean ====
section
/-! SUPPORT. The model's own tests: ill-formed commands that WellFormed refuses, one word of each command decoded, single
steps with the results that the spec prints, and for each statement with hypotheses a state and operands that meet them. The
words and results stand in the spec's rules named in the docstrings, or are worked out by hand from them. -/
namespace Sys2Proof.Tests

-- One theorem after another: many kernel evaluations side by side take a thread's stack each.
set_option Elab.async false

open Sys2Proof Sys2Proof.Machine

/-- The state after a command that completes or faults. -/
def after (i : Instr) (s : State) : State :=
  match exec i s with
  | .next t => t
  | .fault _ => s
  | .refused _ => s

/-- The state after one step on a presented word. -/
def afterWord (w : Word) (s : State) : State :=
  match step (s.withFetchWord 32 w.toNat) with
  | .next t => t
  | .fault _ => s
  | .refused _ => s

/-- P0 and P1 set. -/
def withPolys (a b : List Byte) : State := { State.reset with p0 := a, p1 := b }

/-- The payload of a string whose bytes are given. -/
def withPayload (bs : List Byte) : State :=
  { State.reset with ilen := BitVec.ofNat 16 bs.length, ibuf := Memory.entries 0 bs }

/-- "HELLO" (R117). -/
def hello : State := withPayload [0x48, 0x45, 0x4C, 0x4C, 0x4F]

/-- The data codewords of R117 and R134. -/
def helloData : List Byte :=
  [0x40, 0x54, 0x84, 0x54, 0xC4, 0xC4, 0xF0, 0xEC, 0x11, 0xEC, 0x11, 0xEC, 0x11, 0xEC, 0x11, 0xEC]

/-- The EC codewords of R134. -/
def helloEc : List Byte := [0x23, 0x73, 0x23, 0x99, 0xEC, 0x08, 0xC9, 0xF7, 0x37, 0xDF]

/-- Version 5, level Q, DBUF[i] = i (R139). -/
def countingData : State :=
  let data := Memory.entries 0 ((List.range 62).map (BitVec.ofNat 8))
  { State.reset with version := 5, level := 3, dbuf := data }

/-- A block in the FAULT state after `GLOG 0` (R206). -/
def faulted : State := { State.reset with err := 1, ecmd := 0x11000000 }

/-! ## WellFormed refuses what no word can hold -/

theorem test_wf_imm8 : Instr.wf (.rdcsr 256) = false ∧ Instr.wf (.rdexp 256) = false ∧ Instr.wf (.pgen .p0 256) = false ∧
    Instr.wf (.pget .p0 256) = false ∧ Instr.wf (.setlvl 256) = false ∧ Instr.wf (.setver 256) = false ∧
    Instr.wf (.build 256) = false ∧ Instr.wf (.fmt 256) = false ∧ Instr.wf (.vinf 256) = false := by decide

theorem test_wf_signed16 : Instr.wf (.gexp 32768) = false ∧ Instr.wf (.gexp (-32769)) = false := by decide

theorem test_wf_idx9 : Instr.wf (.wrd 512 0) = false ∧ Instr.wf (.rdi 512) = false ∧ Instr.wf (.rdd 512) = false ∧
    Instr.wf (.rdec 512) = false ∧ Instr.wf (.rdcw 512) = false := by decide

theorem test_wf_row_col : Instr.wf (.rdmod 64 0) = false ∧ Instr.wf (.rdmod 0 64) = false := by decide

/-! ## One word of each command (R61, R63) -/

theorem test_decode_system : decode 0x00000000 = .ok .nop ∧ decode 0x01000000 = .ok .srst ∧
    decode 0x02000005 = .ok (.rdcsr 5) := by decide

theorem test_decode_field : decode 0x1000FFFF = .ok (.gexp (-1)) ∧ decode 0x10008000 = .ok (.gexp (-32768)) ∧
    decode 0x1100001D = .ok (.glog 0x1D) ∧ decode 0x12000019 = .ok (.rdexp 25) := by decide

theorem test_decode_poly : decode 0x20800000 = .ok (.pclr .p2) ∧ decode 0x2140001D = .ok (.ppush .p1 0x1D) ∧
    decode 0x22840000 = .ok (.pmul .p2 .p0 .p1) ∧ decode 0x23840000 = .ok (.pmod .p2 .p0 .p1) ∧
    decode 0x24C0000A = .ok (.pgen .p3 10) ∧ decode 0x25C00000 = .ok (.plen .p3) ∧
    decode 0x26C00001 = .ok (.pget .p3 1) := by decide

theorem test_decode_frontend : decode 0x30000000 = .ok .iclr ∧ decode 0x31000048 = .ok (.ipush 0x48) ∧
    decode 0x32000002 = .ok (.setlvl 2) ∧ decode 0x33000007 = .ok (.setver 7) ∧
    decode 0x340005AB = .ok (.wrd 5 0xAB) ∧ decode 0x340111FF = .ok (.wrd 273 0xFF) := by decide

theorem test_decode_stages : decode 0x40000000 = .ok .selver ∧ decode 0x41000000 = .ok .pack ∧
    decode 0x42000000 = .ok .rsenc ∧ decode 0x43000000 = .ok .ilv ∧ decode 0x44000003 = .ok (.build 3) ∧
    decode 0x45000000 = .ok .score ∧ decode 0x46000000 = .ok .eval ∧ decode 0x47000000 = .ok .wrfmt ∧
    decode 0x48000000 = .ok .final ∧ decode 0x49000000 = .ok .encode ∧ decode 0x4A000002 = .ok (.fmt 2) ∧
    decode 0x4B000007 = .ok (.vinf 7) := by decide

theorem test_decode_readback : decode 0x50000112 = .ok (.rdi 274) ∧ decode 0x51000001 = .ok (.rdd 1) ∧
    decode 0x52000009 = .ok (.rdec 9) ∧ decode 0x53000010 = .ok (.rdcw 16) ∧
    decode 0x54000D08 = .ok (.rdmod 13 8) := by decide

/-- An opcode that is not in the table, and a 1 at a reserved bit of each format (R61, R64). -/
theorem test_decode_refuses : decode 0x03000000 = .error .undefinedOpcode ∧ decode 0xFF000000 = .error .undefinedOpcode ∧
    decode 0x01000001 = .error .reservedBit ∧ decode 0x02000100 = .error .reservedBit ∧
    decode 0x10010000 = .error .reservedBit ∧ decode 0x20000001 = .error .reservedBit ∧
    decode 0x21000100 = .error .reservedBit ∧ decode 0x22020000 = .error .reservedBit ∧
    decode 0x50000200 = .error .reservedBit ∧ decode 0x34020000 = .error .reservedBit ∧
    decode 0x54004000 = .error .reservedBit ∧ decode 0x54000040 = .error .reservedBit := by decide

/-! ## Single steps -/

/-- `NOP` after `GEXP 8` leaves RES = 0x1D (R205). -/
theorem test_nop : (after .nop { State.reset with res := 0x1D }).res = 0x1D := by decide

/-- SRST after `GLOG 0` (R206). -/
theorem test_srst : (after .srst faulted).err = 0 ∧ (after .srst faulted).ecmd = 0 ∧ (after .srst faulted).version = 1 := by
  decide

/-- `RDCSR 0x05` gives 21 and `RDCSR 0x09` gives 16 after reset (R208). -/
theorem test_rdcsr : (after (.rdcsr 5) State.reset).res = 21 ∧ (after (.rdcsr 9) State.reset).res = 16 := by decide

/-- `RDCSR 0x0B` raises E_RANGE with ECMD = 0x0200000B (R208). -/
theorem test_rdcsr_unassigned : (after (.rdcsr 0x0B) State.reset).err = 3 ∧
    (after (.rdcsr 0x0B) State.reset).ecmd = 0x0200000B := by decide

/-- The corner cases of GEXP (R85). -/
theorem test_gexp : (after (.gexp 8) State.reset).res = 0x1D ∧ (after (.gexp 254) State.reset).res = 0x8E ∧
    (after (.gexp 255) State.reset).res = 1 ∧ (after (.gexp (-1)) State.reset).res = 0x8E ∧
    (after (.gexp (-32768)) State.reset).res = 0xCC ∧ (after (.gexp 32767) State.reset).res = 0xCC := by decide

/-- The corner cases of GLOG (R86). -/
theorem test_glog : (after (.glog 1) State.reset).res = 0 ∧ (after (.glog 255) State.reset).res = 0xAF ∧
    (after (.glog 0x8E) State.reset).res = 254 := by decide

/-- `GLOG 0` raises E_DOMAIN with RES unchanged and ECMD = 0x11000000 (R86). -/
theorem test_glog_zero : (after (.glog 0) { State.reset with res := 7 }).err = 1 ∧
    (after (.glog 0) { State.reset with res := 7 }).ecmd = 0x11000000 ∧
    (after (.glog 0) { State.reset with res := 7 }).res = 7 := by decide

/-- `RDEXP 255` gives 1 and `RDEXP 25` gives 3 (R87). -/
theorem test_rdexp : (after (.rdexp 255) State.reset).res = 1 ∧ (after (.rdexp 25) State.reset).res = 3 := by decide

/-- PCLR P1 empties P1 and leaves P0 (R99). -/
theorem test_pclr : (after (.pclr .p1) (withPolys [1] [2, 3])).p1 = [] ∧
    (after (.pclr .p1) (withPolys [1] [2, 3])).p0 = [1] := by decide

/-- The example and the corner cases of PPUSH (R100). -/
theorem test_ppush : (after (.ppush .p0 3) (withPolys [1] [])).p0 = [1, 3] ∧
    (after (.ppush .p0 0) (withPolys [] [])).p0 = [] ∧ (after (.ppush .p0 0) (withPolys [1] [])).p0 = [1, 0] := by decide

/-- The examples of PMUL (R101): [01 01]·[01 02], and sources of length 1. -/
theorem test_pmul : (after (.pmul .p2 .p0 .p1) (withPolys [1, 1] [1, 2])).p2 = [1, 3, 2] ∧
    (after (.pmul .p0 .p0 .p1) (withPolys [0x80] [2])).p0 = [0x1D] ∧
    (after (.pmul .p1 .p0 .p0) (withPolys [0xFF] [])).p1 = [0xE2] := by decide +kernel

/-- `[01 00 01]·[01 01]` faults with E_DOMAIN and writes no register (R101, R106). -/
theorem test_pmul_zero : (after (.pmul .p2 .p0 .p1) (withPolys [1, 0, 1] [1, 1])).err = 1 ∧
    (after (.pmul .p2 .p0 .p1) (withPolys [1, 0, 1] [1, 1])).p2 = [] := by decide +kernel

/-- The example of PMOD, and `pa = pb` (R102). -/
theorem test_pmod : (after (.pmod .p2 .p0 .p1) (withPolys [0x12, 0x34, 0x56, 0, 0] [1, 3, 2])).p2 = [0x98, 0xE8] ∧
    (after (.pmod .p2 .p1 .p1) (withPolys [] [1, 3, 2])).p2 = [] := by decide +kernel

/-- An empty divisor faults, a shorter dividend is copied (R102). -/
theorem test_pmod_edges : (after (.pmod .p2 .p0 .p1) (withPolys [1] [])).err = 1 ∧
    (after (.pmod .p2 .p0 .p1) (withPolys [5] [1, 0, 1])).p2 = [5] := by decide +kernel

/-- pgen(10) and pgen(0) (R103, R107). -/
theorem test_pgen : (after (.pgen .p3 10) State.reset).p3 =
      [0x01, 0xD8, 0xC2, 0x9F, 0x6F, 0xC7, 0x5E, 0x5F, 0x71, 0x9D, 0xC1] ∧
    (after (.pgen .p3 0) State.reset).p3 = [1] := by decide +kernel

/-- PLEN (R104). -/
theorem test_plen : (after (.plen .p0) (withPolys [1, 3, 2] [])).res = 3 ∧ (after (.plen .p1) (withPolys [1] [])).res = 0 := by
  decide

/-- PGET counts from the leading coefficient, and faults from the length up (R105). -/
theorem test_pget : (after (.pget .p0 1) (withPolys [1, 0xD8] [])).res = 0xD8 ∧
    (after (.pget .p0 2) (withPolys [1, 0xD8] [])).err = 3 := by decide

/-- ICLR leaves the bytes (R110). -/
theorem test_iclr : (after .iclr hello).ilen = 0 ∧ (after .iclr hello).ibuf.read 4 = 0x4F := by decide

/-- A byte is stored at ILEN; at 274 it is counted and not stored; the count sticks at 65535 (R111). -/
theorem test_ipush : (after (.ipush 0x21) hello).ibuf.read 5 = 0x21 ∧ (after (.ipush 0x21) hello).ilen = 6 := by decide

theorem test_ipush_full : (after (.ipush 0x21) { State.reset with ilen := 274 }).ibuf = [] ∧
    (after (.ipush 0x21) { State.reset with ilen := 274 }).ilen = 275 ∧
    (after (.ipush 0x21) { State.reset with ilen := 65535 }).ilen = 65535 := by decide

/-- SETLVL (R114). -/
theorem test_setlvl : (after (.setlvl 3) State.reset).level = 3 ∧ (after (.setlvl 4) State.reset).err = 3 := by decide

/-- SETVER 7 makes NMOD read 45; 0 and 11 fault (R112). -/
theorem test_setver : (after (.setver 7) State.reset).nmod = 45 ∧ (after (.setver 0) State.reset).err = 3 ∧
    (after (.setver 11) State.reset).ecmd = 0x3300000B := by decide

/-- WRD (R119). -/
theorem test_wrd : (after (.wrd 273 0xAB) State.reset).dbuf.read 273 = 0xAB ∧ (after (.wrd 274 0xAB) State.reset).err = 3 := by
  decide

/-- The corner cases of SELVER at level L: 271 fits version 10, 272 does not (R115). -/
theorem test_selver : (after .selver { State.reset with level := 1, ilen := 271 }).ovf = false ∧
    (after .selver { State.reset with level := 1, ilen := 272 }).ovf = true ∧
    (after .selver { State.reset with level := 1, ilen := 272 }).version = 10 := by decide +kernel

/-- cap(1, M) = 14: 14 bytes select version 1, 15 version 2 (R113, R115). -/
theorem test_selver_first : (after .selver { State.reset with ilen := 14 }).version = 1 ∧
    (after .selver { State.reset with ilen := 15 }).version = 2 := by decide +kernel

/-- The example of PACK (R117). -/
theorem test_pack : (after .pack hello).dbuf.slice 0 16 = helloData ∧ (after .pack hello).ovf = false := by decide +kernel

/-- Fifteen bytes in version 1, level M: the cut at 128 bits and OVF (R118). -/
theorem test_pack_overflow : (after .pack (withPayload (List.replicate 15 0xFF))).ovf = true ∧
    (after .pack (withPayload (List.replicate 15 0xFF))).dbuf.slice 0 3 = [0x40, 0xFF, 0xFF] ∧
    (after .pack (withPayload (List.replicate 15 0xFF))).dbuf.read 15 = 0xFF := by decide +kernel

/-- The example of RSENC (R134). -/
theorem test_rsenc : (after .rsenc { State.reset with dbuf := Memory.entries 0 helloData }).ecbuf.slice 0 10 = helloEc := by
  decide +kernel

/-- `x^25 mod pgen(10)` (R138). -/
theorem test_rsenc_lead : (after .rsenc { State.reset with dbuf := [(0, 1)] }).ecbuf.slice 0 10 =
    [0xFB, 0x49, 0xB8, 0x7B, 0xDE, 0x86, 0xEE, 0x38, 0x02, 0xFC] := by decide +kernel

/-- Version 5, level Q, DBUF[i] = i: the last two data codewords are 2D and 3D (R139). -/
theorem test_ilv : (after .ilv countingData).cw.slice 56 6 =
    [0x0E, 0x1D, 0x2C, 0x3C, 0x2D, 0x3D] := by decide +kernel

/-- CWLEN = CTOT (R136). -/
theorem test_ilv_length : (after .ilv { State.reset with version := 5, level := 3 }).cwlen = 134 := by decide +kernel

/-- BUILD 0 on version 1: the first cells of row 20 from the right, the dark module, a reserved cell, outside (R163). -/
theorem test_build : (after (.build 0) State.reset).mat.read 20 20 = .dark ∧
    (after (.build 0) State.reset).mat.read 20 19 = .light ∧ (after (.build 0) State.reset).mat.read 13 8 = .dark ∧
    (after (.build 0) State.reset).mat.read 8 8 = .light ∧ (after (.build 0) State.reset).mat.read 21 0 = .unset := by
  decide +kernel

/-- BUILD 8 faults (R159). -/
theorem test_build_range : (after (.build 8) State.reset).err = 3 ∧ (after (.build 8) State.reset).ecmd = 0x44000008 := by
  decide

/-- Corner, edge and inner cells of an all-unset grid (R171, R175), and what they contribute. -/
theorem test_score_rule_a : sameCount 21 State.reset.mat 0 0 = 3 ∧ sameCount 21 State.reset.mat 0 5 = 5 ∧
    sameCount 21 State.reset.mat 5 5 = 8 ∧ ruleACell 3 = 0 ∧ ruleACell 5 = 3 ∧ ruleACell 8 = 6 := by decide +kernel

/-- The examples of rule C (R173). -/
theorem test_score_rule_c : ruleCOf 21 210 = 0 ∧ ruleCOf 21 199 = 0 ∧ ruleCOf 21 198 = 10 ∧ ruleCOf 21 242 = 0 ∧
    ruleCOf 21 243 = 10 ∧ ruleCOf 21 0 = 100 ∧ ruleCOf 21 441 = 100 ∧ ruleCOf 25 250 = 20 ∧ ruleCOf 25 251 = 10 := by decide

/-- The totals of R176: the least index with the minimal total is 2. -/
theorem test_eval_best :
    bestMask { State.reset with pen := #v[1258, 1463, 1174, 1192, 1187, 1360, 1380, 1318] } = 2 := by decide

/-- On ties the lowest index wins; MASK = 7 and FINAL = 0 after EVAL (R176). -/
theorem test_eval_tie : bestMask { State.reset with pen := #v[9, 5, 7, 5, 9, 9, 9, 5] } = 1 ∧
    (after .eval { State.reset with final := true }).mask = 7 ∧
    (after .eval { State.reset with final := true }).final = false := by decide +kernel

/-- The example of WRFMT: LEVEL = 0, MASK = 2, VERSION = 1 (R194). -/
theorem test_wrfmt : (List.range 9).map ((after .wrfmt { State.reset with mask := 2 }).mat.read 8) =
      [.dark, .light, .dark, .dark, .dark, .dark, .unset, .light, .light] ∧
    (after .wrfmt { State.reset with mask := 2 }).final = true := by decide +kernel

/-- Column 8 of the same example: rows 14 to 20 (R194). -/
theorem test_wrfmt_column : (List.range 7).map (fun k => (after .wrfmt { State.reset with mask := 2 }).mat.read (14 + k) 8) =
    [.light, .dark, .dark, .dark, .dark, .light, .dark] := by decide +kernel

/-- After FINAL, MASK = BEST and the format word is that of BEST (R195, R189: fmt15(2) = 0x5E7C has bit 0 = 0, bit 2 = 1). -/
theorem test_final : (after .final { State.reset with best := 2 }).mask = 2 ∧
    (after .final { State.reset with best := 2 }).mat.read 0 8 = .light ∧
    (after .final { State.reset with best := 2 }).mat.read 2 8 = .dark := by decide +kernel

/-- "HELLO" at level M: version 1, 26 codewords, FINAL set (R198). -/
theorem test_encode : (after .encode hello).version = 1 ∧ (after .encode hello).cwlen = 26 ∧
    (after .encode hello).final = true ∧ (after .encode hello).err = 0 := by decide +kernel

/-- ENCODE of the same: the codewords are data, then EC (R198, R136). -/
theorem test_encode_codewords : (after .encode hello).cw.slice 0 26 = helloData ++ helloEc := by decide +kernel

/-- FMT 2 (R188) and `FMT 32`. -/
theorem test_fmt : (after (.fmt 2) State.reset).res = 0x5E7C ∧ (after (.fmt 31) State.reset).res = 0x2BED ∧
    (after (.fmt 32) State.reset).err = 3 := by decide

/-- VINF 7, VINF 63 (R190) and `VINF 64`. -/
theorem test_vinf : (after (.vinf 7) State.reset).res = 0x7C94 ∧ (after (.vinf 63) State.reset).res = 0x3FB85 ∧
    (after (.vinf 64) State.reset).err = 3 := by decide

/-- RDI (R209). -/
theorem test_rdi : (after (.rdi 0) hello).res = 0x48 ∧ (after (.rdi 274) hello).ecmd = 0x50000112 := by decide

/-- RDD and RDEC (R210, R211). -/
theorem test_rdd_rdec : (after (.rdd 1) { State.reset with dbuf := Memory.entries 0 helloData }).res = 0x54 ∧
    (after (.rdec 9) { State.reset with ecbuf := Memory.entries 0 helloEc }).res = 0xDF ∧
    (after (.rdec 224) State.reset).err = 3 := by decide

/-- RDCW (R212): the index is not compared with CWLEN. -/
theorem test_rdcw : (after (.rdcw 345) { State.reset with cw := [(345, 0x23)] }).res = 0x23 ∧
    (after (.rdcw 346) State.reset).err = 3 := by decide

/-- RDMOD (R213). -/
theorem test_rdmod : (after (.rdmod 56 56) State.reset).res = 0 ∧ (after (.rdmod 57 0) State.reset).err = 3 ∧
    (after (.rdmod 0 7) { State.reset with mat := State.reset.mat.set 0 7 .light }).res = 1 ∧
    (after (.rdmod 13 8) { State.reset with mat := State.reset.mat.set 13 8 .dark }).res = 2 := by decide +kernel

/-! ## Words at the port -/

/-- The first word after reset runs; an illegal word faults; in the FAULT state a legal one is discarded, SRST is not. -/
theorem test_step : (afterWord 0x10000008 State.reset).res = 0x1D ∧ (afterWord 0x01000001 State.reset).err = 2 ∧
    (afterWord 0x01000001 State.reset).ecmd = 0x01000001 ∧ (afterWord 0x10000008 faulted).res = 0 ∧
    (afterWord 0x01000001 faulted).err = 1 ∧ (afterWord 0x01000000 faulted).err = 0 := by decide

/-- The `rst` input (R260). -/
theorem test_rst : (match step { faulted with host := [PortIn.reset] } with
    | .next t => decide (t.err = 0 ∧ t.version = 1)
    | _ => false) = true := by decide

/-- The examples of R221: "é", "€" and U+1F600; a lone surrogate is refused (R222). -/
theorem test_utf8 : utf8 [0xE9] = some [0xC3, 0xA9] ∧ utf8 [0x20AC] = some [0xE2, 0x82, 0xAC] ∧
    utf8 [0xD83D, 0xDE00] = some [0xF0, 0x9F, 0x98, 0x80] ∧ utf8 [0xD83D] = none ∧ utf8 [0x41, 0xDE00] = none := by decide

/-- `QR M, "A"` (R68). -/
theorem test_pseudo : (Pseudo.qr "M" [0x41]).expand = some [.setlvl 0, .iclr, .ipush 0x41, .encode] ∧
    (Pseudo.pload .p1 [3, 0]).expand = some [.pclr .p1, .ppush .p1 3, .ppush .p1 0] := by decide

/-! ## The hypotheses of the statements can be met

One theorem per statement of Obligations.lean that has hypotheses: concrete values that meet all of them together, one set of
values for each clause, at the boundary of its range. -/

/-- The host presents a word, then another. -/
def presenting (w : Word) (s : State) : State := { s with host := [PortIn.present w, PortIn.present 0] }

/-- A state that meets the invariant and is not the reset state. -/
def version10 : State := { State.reset with version := 10, level := 1 }

/-- P0 holds 256 coefficients, P1 holds two. -/
def fullPoly : State := withPolys (List.replicate 256 1) [1, 1]

theorem expEntry_isExpTable : IsExpTable expEntry := by
  refine ⟨by decide, fun i h1 h2 => ?_⟩
  obtain ⟨k, rfl⟩ := Nat.exists_eq_add_of_le h1
  have h := expEntry_recurrence k (by omega)
  rw [Nat.add_comm 8 k]
  simpa using h

theorem polysLegal_of {s : State} (h0 : PolyLegal s.p0) (h1 : PolyLegal s.p1) (h2 : PolyLegal s.p2) (h3 : PolyLegal s.p3) :
    s.PolysLegal := by
  intro p
  cases p
  · exact h0
  · exact h1
  · exact h2
  · exact h3

theorem test_witness_DecodeEncodeRoundTrip : Instr.wf (.rdmod 63 63) = true ∧ Instr.wf (.wrd 511 255) = true ∧
    Instr.wf (.gexp (-32768)) = true ∧ Instr.wf (.gexp 32767) = true ∧ Instr.wf (.pget .p3 255) = true := by decide

theorem test_witness_DecodedWordIsItsEncoding : decode 0x54003F3F = .ok (.rdmod 63 63) := by decide

theorem test_witness_NoWordMatchesTwoTableRows :
    ∃ r ∈ opcodeRows, (0x54003F3F : Word) &&& r.mask = r.fixed := by decide

theorem test_witness_StepRunsTheDecodedCommand :
    (presenting 0x10000008 State.reset).host = PortIn.present 0x10000008 :: [PortIn.present 0] ∧
    decode 0x10000008 = .ok (.gexp 8) := by decide

theorem test_witness_IllegalWordRaisesIllegal :
    (presenting 0x01000001 State.reset).host = PortIn.present 0x01000001 :: [PortIn.present 0] ∧
    (presenting 0x01000001 State.reset).Running ∧ (∀ r ∈ opcodeRows, (0x01000001 : Word) &&& r.mask ≠ r.fixed) ∧
    (∃ r ∈ opcodeRows, (0x01000000 : Word) &&& r.mask = r.fixed) := by decide

theorem test_witness_FaultStateDiscardsEveryWordButSrst :
    (presenting 0x01000001 faulted).host = PortIn.present 0x01000001 :: [PortIn.present 0] ∧
    (presenting 0x01000001 faulted).err ≠ 0 ∧ (0x01000001 : Word) ≠ 0x01000000 ∧ Instr.nop ≠ Instr.srst := by decide

theorem test_witness_ResetInputResetsAndIdlePortsDoNothing :
    ({ faulted with host := [PortIn.reset] } : State).host = PortIn.reset :: [] ∧ PortIn.reset.rst = true ∧
    ({ rst := false, cmdValid := false, cmdWord := 5 } : PortIn).rst = false ∧
    ({ rst := false, cmdValid := false, cmdWord := 5 } : PortIn).cmdValid = false ∧ State.reset.host = [] := by decide

theorem version10_inv : version10.Inv where
  version := by decide
  poly := polysLegal_of (by decide) (by decide) (by decide) (by decide)
  cwlen := by decide
  err := by decide
  ecmd := by decide
  ibuf := by decide
  dbuf := by decide
  ecbuf := by decide
  cw := by decide

theorem test_witness_EveryStepKeepsTheInvariant : version10.Inv ∧ step version10 = .next version10 := ⟨version10_inv, rfl⟩

theorem test_witness_OnlyResetAndSrstLeaveTheFaultState :
    (presenting 0x01000000 faulted).err ≠ 0 ∧
    ∃ t, step (presenting 0x01000000 faulted) = .next t ∧ t.err = 0 := ⟨by decide, _, rfl, rfl⟩

/-- A command that faults and one that completes. -/
theorem test_witness_FaultingCommandChangesOnlyErrAndEcmd : State.reset.Running ∧ Instr.glog 0 ≠ .srst ∧
    (∃ t, exec (.glog 0) State.reset = .next t ∧ t.err = 1) ∧ ∃ t, exec .nop State.reset = .next t ∧ t.err = 0 :=
  ⟨rfl, by decide, ⟨_, rfl, rfl⟩, _, rfl, rfl⟩

/-- Each listed command just outside its range, and inside. -/
theorem test_witness_RangeFaultExactlyForTheListedOperands : State.reset.Running ∧
    (∀ i ∈ [Instr.setlvl 4, .setver 0, .setver 11, .wrd 274 0, .build 8, .fmt 32, .vinf 64, .rdcsr 0x0B, .rdi 274, .rdd 274,
      .rdec 224, .rdcw 346, .rdmod 57 0, .rdmod 0 57, .pget .p0 0], i.wf = true ∧ (after i State.reset).err = 3) ∧
    ∀ i ∈ [Instr.setlvl 3, .setver 1, .setver 10, .wrd 273 0, .fmt 31, .vinf 63, .rdcsr 0x0A, .rdi 273, .rdd 273,
      .rdec 223, .rdcw 345, .rdmod 56 56], i.wf = true ∧ (after i State.reset).err = 0 := by decide +kernel

theorem fullPoly_legal : fullPoly.PolysLegal :=
  polysLegal_of (by decide +kernel) (by decide) (by decide) (by decide)

/-- A full register, and a product of 257 coefficients. -/
theorem test_witness_LengthFaultExactlyWhenOver256 : fullPoly.Running ∧ fullPoly.PolysLegal ∧
    Instr.wf (.ppush .p0 1) = true ∧ (after (.ppush .p0 1) fullPoly).err = 4 ∧
    Instr.wf (.pmul .p2 .p0 .p1) = true ∧ (after (.pmul .p2 .p0 .p1) fullPoly).err = 4 :=
  ⟨rfl, fullPoly_legal, by decide, by decide +kernel, by decide, by decide +kernel⟩

/-- A command and a word that complete, that fault, and that the FAULT state discards; the ports' other cases. -/
theorem test_witness_EveryCommandAndStepHasOneOfTheThreeOutcomes :
    Instr.wf (.glog 0) = true ∧ Instr.wf (.gexp 8) = true ∧ Instr.glog 0 ≠ .srst ∧ Instr.gexp 8 ≠ .srst ∧
    fullPoly.err = 0 ∧ fullPoly.PolysLegal ∧ fullPoly.formsLogOfZero (.glog 0) ∧ fullPoly.overLong (.ppush .p0 1) ∧
    fullPoly.outOfRange (.build 8) ∧ ¬fullPoly.formsLogOfZero (.gexp 8) ∧ faulted.err ≠ 0 ∧ State.reset.host = [] ∧
    (presenting 0x10000008 fullPoly).host = PortIn.present 0x10000008 :: [PortIn.present 0] ∧
    (PortIn.present 0x10000008).rst = false ∧ (PortIn.present 0x10000008).cmdValid = true ∧
    (PortIn.present 0x10000008).cmdWord ≠ 0x01000000 ∧ (PortIn.present 0x01000000).cmdWord = 0x01000000 ∧
    decode 0x10000008 = .ok (.gexp 8) ∧ PortIn.reset.rst = true ∧
    ({ rst := false, cmdValid := false, cmdWord := 5 } : PortIn).cmdValid = false :=
  ⟨by decide, by decide, by decide, by decide, rfl, fullPoly_legal, rfl,
    by show (fullPoly.poly .p0).length = 256; decide +kernel, by show 7 < 8; decide, id, by decide, rfl, rfl, rfl, rfl, by decide, rfl, by decide, rfl, rfl⟩

/-- The four cases. -/
theorem test_witness_DomainFaultExactlyInTheFourCases :
    (withPolys [1, 0, 1] [1]).Running ∧ (withPolys [1, 0, 1] [1]).PolysLegal ∧
    Instr.wf (.pmul .p2 .p0 .p1) = true ∧
    (∀ i ∈ [Instr.glog 0, .pmul .p2 .p0 .p1, .pmod .p2 .p0 .p3, .pmod .p2 .p0 .p0],
      (after i (withPolys [1, 0, 1] [1])).err = 1) :=
  ⟨rfl, polysLegal_of (by decide) (by decide) (by decide) (by decide), by decide, by decide +kernel⟩

/-- A command that is no writer of RES, and a writer that faults. -/
theorem test_witness_ResIsWrittenOnlyByItsWriters :
    (∃ t, exec .iclr State.reset = .next t ∧ writesRes .iclr = false) ∧
    (∃ t, exec (.glog 0) State.reset = .next t ∧ t.err ≠ 0) ∧ Instr.iclr ≠ .srst ∧ Instr.glog 0 ≠ .srst :=
  ⟨⟨_, rfl, rfl⟩, ⟨_, rfl, by decide⟩, by decide, by decide⟩

theorem test_witness_SymbolRegistersAreWrittenOnlyByTheirWriters :
    (∃ t, exec .nop version10 = .next t) ∧ Instr.nop ≠ .srst ∧ (∀ c, Instr.nop ≠ .setlvl c) ∧ (∀ v, Instr.nop ≠ .setver v) ∧
    (∀ m, Instr.nop ≠ .build m) ∧ (∀ b, Instr.nop ≠ .ipush b) ∧ Instr.nop ≠ .selver ∧ Instr.nop ≠ .encode ∧
    Instr.nop ≠ .eval ∧ Instr.nop ≠ .final ∧ Instr.nop ≠ .iclr ∧ Instr.nop ≠ .ilv := by
  refine ⟨⟨_, rfl⟩, ?_⟩
  simp

theorem test_witness_FlagsAndPenaltiesAreWrittenOnlyByTheirWriters :
    (∃ t, exec (.gexp 8) version10 = .next t) ∧ Instr.gexp 8 ≠ .srst ∧ Instr.gexp 8 ≠ .selver ∧ Instr.gexp 8 ≠ .pack ∧
    Instr.gexp 8 ≠ .encode ∧ (∀ m, Instr.gexp 8 ≠ .build m) ∧ Instr.gexp 8 ≠ .eval ∧ Instr.gexp 8 ≠ .wrfmt ∧
    Instr.gexp 8 ≠ .final ∧ Instr.gexp 8 ≠ .score := by
  refine ⟨⟨_, rfl⟩, ?_⟩
  simp

theorem test_witness_StorageIsWrittenOnlyByItsWriters :
    (∃ t, exec .iclr version10 = .next t) ∧ Instr.iclr ≠ .srst ∧ destPoly .iclr ≠ some .p0 ∧
    (∀ b, Instr.iclr ≠ .ipush b) ∧ (∀ k b, Instr.iclr ≠ .wrd k b) ∧ (∀ m, Instr.iclr ≠ .build m) ∧ Instr.iclr ≠ .pack ∧
    Instr.iclr ≠ .encode ∧ Instr.iclr ≠ .rsenc ∧ Instr.iclr ≠ .ilv ∧ Instr.iclr ≠ .eval ∧ Instr.iclr ≠ .wrfmt ∧
    Instr.iclr ≠ .final := by
  refine ⟨⟨_, rfl⟩, ?_⟩
  simp [destPoly]

theorem test_witness_ReadCommandsHaveNoSideEffect :
    isRead (.rdi 0) = true ∧ ∃ t, exec (.rdi 0) hello = .next t ∧ t.err = 0 := ⟨rfl, _, rfl, rfl⟩

theorem test_witness_RdcsrReadsTheNumberedRegister : version10.Running ∧ version10.LegalVersion ∧
    csrAssigned 0x17 = true ∧ csrAssigned 0x0B = false ∧ csrAssigned 0x18 = false ∧ csrAssigned 0xFF = false := by decide

theorem test_witness_BufferReadbackGivesTheByte : hello.Running ∧ (511 < 512) ∧ (273 ≤ 273 ∧ 273 < 274) ∧
    (223 ≤ 223 ∧ 223 < 224) ∧ (345 ≤ 345 ∧ 345 < 346) := by decide

theorem test_witness_RdmodGivesTheCellCode : State.reset.Running ∧ State.reset.mat.read 56 56 = .unset ∧
    (State.reset.mat.set 0 7 .light).read 0 7 = .light ∧ (State.reset.mat.set 13 8 .dark).read 13 8 = .dark ∧
    (56 < 57 ∧ 57 < 64) := by decide +kernel

theorem test_witness_ExpTableFacts : IsExpTable expEntry := expEntry_isExpTable

theorem test_witness_GexpAndRdexpReadTheExpTable : IsExpTable expEntry ∧ State.reset.Running ∧
    ((-32768 : Int) ≤ -32768 ∧ (32767 : Int) ≤ 32767) ∧ 255 ≤ 255 := ⟨expEntry_isExpTable, rfl, by decide, by decide⟩

theorem test_witness_GlogInvertsExpAndFaultsAtZero : IsExpTable expEntry ∧ State.reset.Running ∧ (1 : Byte) ≠ 0 :=
  ⟨expEntry_isExpTable, rfl, by decide⟩

theorem test_witness_PclrAndIclrClear : hello.Running := rfl

/-- A register with room, and a full one. -/
theorem test_witness_PpushAppendsTheConstantTerm : fullPoly.Running ∧ fullPoly.PolysLegal ∧ (fullPoly.poly .p1).length < 256 ∧
    (fullPoly.poly .p0).length = 256 := ⟨rfl, fullPoly_legal, by decide, by decide +kernel⟩

/-- An empty operand; a product that is too long; a zero coefficient; a product that exists. -/
theorem test_witness_PmulLeavesTheProduct : fullPoly.Running ∧ fullPoly.PolysLegal ∧ fullPoly.poly .p2 = [] ∧
    256 < (fullPoly.poly .p0).length + (fullPoly.poly .p1).length - 1 ∧
    (withPolys [1, 0, 1] [1, 1]).Running ∧ (withPolys [1, 0, 1] [1, 1]).PolysLegal ∧
    (withPolys [1, 0, 1] [1, 1]).poly .p1 ≠ [] ∧ 0 ∈ (withPolys [1, 0, 1] [1, 1]).poly .p0 ∧
    0 ∉ (withPolys [1, 0, 1] [1, 1]).poly .p1 :=
  ⟨rfl, fullPoly_legal, rfl, by decide +kernel, rfl, polysLegal_of (by decide) (by decide) (by decide) (by decide), by decide,
    by decide, by decide⟩

/-- An empty divisor; a shorter dividend; a zero coefficient that a pass uses; a remainder. -/
theorem test_witness_PmodLeavesTheRemainder : (withPolys [1, 0, 1] [1, 1]).Running ∧ (withPolys [1, 0, 1] [1, 1]).PolysLegal ∧
    (withPolys [1, 0, 1] [1, 1]).poly .p2 = [] ∧
    ((withPolys [1, 0, 1] [1, 1]).poly .p1).length < ((withPolys [1, 0, 1] [1, 1]).poly .p0).length ∧
    0 ∈ (withPolys [1, 0, 1] [1, 1]).poly .p0 ∧ (withPolys [1, 0, 1] [1, 1]).poly .p1 ≠ [] ∧
    0 ∉ (withPolys [1, 0, 1] [1, 1]).poly .p1 :=
  ⟨rfl, polysLegal_of (by decide) (by decide) (by decide) (by decide), rfl, by decide, by decide, by decide, by decide⟩

theorem test_witness_PgenLeavesTheGeneratorPolynomial : State.reset.Running ∧ 255 ≤ 255 := by decide

theorem test_witness_PgenGivesThePrintedGenerators : State.reset.Running ∧ (0, [0x01]) ∈ printedGenerators := by decide

theorem test_witness_PlenAndPgetReadThePolynomial : fullPoly.Running ∧ (fullPoly.poly .p0)[255]? = some 1 ∧
    (fullPoly.poly .p1).length ≤ 2 := by decide +kernel

theorem test_witness_IpushStoresAndCounts : hello.Running := rfl

theorem test_witness_SetlvlAndSetverSetOrRefuse : State.reset.Running ∧ 3 ≤ 3 ∧ 3 < 4 ∧ 10 ≤ 10 ∧ 10 < 11 ∧ 255 < 256 := by
  decide

theorem test_witness_WrdWritesOneByte : State.reset.Running ∧ 273 ≤ 273 ∧ 273 < 274 ∧ 511 < 512 := by decide

/-- A payload of exactly 271 bytes fits at level L; one of 272 fits no version. -/
theorem test_witness_SelverPicksTheFirstVersionThatFits : version10.Running ∧
    (1 ≤ 10 ∧ 10 ≤ 10 ∧ 271 ≤ printedCapacity 10 1) ∧ (∀ v ∈ List.range' 1 10, printedCapacity v 1 < 272) := by decide

/-- A payload that fits exactly (271 bytes at version 10, level L), and one byte more. -/
theorem test_witness_PackStoresTheBitStream : version10.Running ∧ version10.LegalVersion ∧
    printedCapacity 10 1 = 271 ∧ (∀ n ∈ [271, 272],
      let s : State := { version10 with ilen := BitVec.ofNat 16 n }
      s.Running ∧ s.LegalVersion ∧ (printedCapacity s.version.toNat s.level < s.ilen.toNat ↔ n = 272)) := by decide

theorem test_witness_RsencLeavesTheRemainders : version10.Running ∧ version10.LegalVersion := by decide

theorem rsenc_answers (s : State) : ∃ t, exec .rsenc s = .next t := by
  have h : exec .rsenc s = command (encode .rsenc) s rsencState := rfl
  rw [h]
  exact command_next _ _ _

theorem encode_answers (s : State) : ∃ t, exec .encode s = .next t := by
  have h : exec .encode s = command (encode .encode) s encodeState := rfl
  rw [h]
  exact command_next _ _ _

theorem test_witness_RsencBlocksAreMultiplesOfTheGenerator : State.reset.Running ∧ State.reset.LegalVersion ∧
    (∃ t, exec .rsenc State.reset = .next t) ∧ 0 < (blocks 1 0).length ∧
    ∃ e ∈ printedGenerators, e.1 = ecCountOf 1 0 := by
  exact ⟨rfl, by decide, rsenc_answers _, by decide, by decide⟩

theorem test_witness_IlvInterleavesColumnWise : version10.Running ∧ version10.LegalVersion := by decide

theorem test_witness_BuildRunsItsSteps : version10.Running ∧ version10.LegalVersion ∧ 7 ≤ 7 ∧ 7 < 8 ∧ 255 < 256 := by decide

theorem test_witness_BuildSetsEveryCellOfTheSymbol : version10.Running ∧ version10.LegalVersion ∧ 7 ≤ 7 := by decide

theorem test_witness_BuildLeavesTheFixedPatterns : version10.Running ∧ version10.LegalVersion ∧ 7 ≤ 7 := by decide

theorem test_witness_DataCellsCarryTheMaskedStream : State.reset.Running ∧ State.reset.LegalVersion ∧ 7 ≤ 7 ∧
    (dataCells 1)[0]? = some (20, 20) ∧ (dataCells 1)[207]? = some (12, 0) := by decide +kernel

theorem test_witness_ScoreLeavesThePenalties : State.reset.Running ∧ State.reset.LegalVersion := by decide

theorem test_witness_EvalPicksTheLeastMinimalMask : version10.Running := rfl

theorem test_witness_FmtAndVinfGiveTheBchWords : State.reset.Running ∧ 31 ≤ 31 ∧ 31 < 32 ∧ 63 ≤ 63 ∧ 63 < 64 ∧ 255 < 256 := by
  decide

/-- A version that has version cells and one that has none. -/
theorem test_witness_WrfmtWritesFormatAndVersionCells : version10.Running ∧ version10.LegalVersion ∧
    7 ≤ version10.version.toNat ∧ State.reset.LegalVersion := by decide

theorem test_witness_FinalIsBuildBestThenWrfmt : version10.Running := rfl

theorem test_witness_EncodeIsTheSixStages : hello.Running := rfl

theorem test_witness_EncodeLeavesAFinishedSymbol : hello.Running := rfl

/-- The same payload, after other work: another version, other data, a byte past the payload. -/
theorem test_witness_EncodeDependsOnlyOnThePayload :
    let other : State := { hello with version := 9, dbuf := [(3, 7)], ibuf := hello.ibuf.write 100 1, p0 := [1] }
    hello.Running ∧ other.Running ∧ hello.level = other.level ∧ hello.ilen = other.ilen ∧
      (∀ i < min hello.ilen.toNat 274, hello.ibuf.read i = other.ibuf.read i) ∧
      (∃ t, exec .encode hello = .next t) ∧ ∃ t, exec .encode other = .next t := by
  exact ⟨rfl, rfl, rfl, rfl, by decide +kernel, encode_answers _, encode_answers _⟩

end Sys2Proof.Tests
end

/-! SUPPORT. What a completing command leaves, said once for the 34 commands but SRST: a relation with one constructor per kind
of write, and the inversion of `exec` into discarded, complete or fault entry (R241). -/
namespace Sys2Proof.Machine

/-! What the polynomial functions answer is a legal register value (R22). -/

theorem polyLegal_nil : PolyLegal [] := by decide

theorem polyLegal_strip {a : List Byte} (h : a.length ≤ Config.polyMax) : PolyLegal (strip a) :=
  ⟨isStripped_strip a, (length_strip_le a).trans h⟩

theorem length_mulRow {u : Byte} {b : List Byte} {k : Nat} {out r : List Byte} (h : mulRow u b k out = .ok r) :
    r.length = out.length := by
  induction b generalizing k out with
  | nil => cases h; rfl
  | cons v b ih =>
    simp only [mulRow] at h
    split at h
    · cases h
    · simpa using ih h

theorem length_mulRows {b a : List Byte} {k : Nat} {out r : List Byte} (h : mulRows b a k out = .ok r) :
    r.length = out.length := by
  induction a generalizing k out with
  | nil => cases h; rfl
  | cons u a ih =>
    simp only [mulRows] at h
    split at h
    · cases h
    · next hrow => exact (ih h).trans (length_mulRow hrow)

theorem polyLegal_pmul {a b v : List Byte} (h : pmul a b = .ok v) : PolyLegal v := by
  unfold pmul pmulStripped at h
  split at h
  · cases h; exact polyLegal_nil
  · split at h
    · cases h
    · next hmax =>
      split at h
      · cases h
      · next hrows =>
        cases h
        refine polyLegal_strip ?_
        rw [length_mulRows hrows, zeros, List.length_replicate]
        omega

theorem length_elimRow {ratio : Int} {a b r : List Byte} (h : elimRow ratio a b = .ok r) : r.length = a.length := by
  induction b generalizing a r with
  | nil => simp only [elimRow] at h; cases h; rfl
  | cons y b ih =>
    cases a with
    | nil => cases h; rfl
    | cons x a =>
      simp only [elimRow] at h
      split at h
      · cases h
      · split at h
        · cases h
        · next hrest => cases h; simp [ih hrest]

theorem polyLegal_pmodLoop {fuel : Nat} {a b v : List Byte} (ha : PolyLegal a) (h : pmodLoop fuel a b = .ok v) :
    PolyLegal v := by
  induction fuel generalizing a with
  | zero => cases h; exact ha
  | succ fuel ih =>
    rw [pmodLoop] at h
    split at h
    · cases h; exact ha
    · split at h
      · cases h
      · split at h
        · cases h
        · next hrow => exact ih (polyLegal_strip ((length_elimRow hrow).trans_le ha.2)) h

theorem polyLegal_pmod {a b v : List Byte} (ha : PolyLegal a) (h : pmod a b = .ok v) : PolyLegal v := by
  unfold pmod pmodStripped at h
  split at h
  · cases h
  · exact polyLegal_pmodLoop (polyLegal_strip ha.2) h

theorem polyLegal_pgen {n : Nat} {v : List Byte} (h : pgen n = .ok v) : PolyLegal v := by
  cases n with
  | zero => cases h; decide
  | succ n =>
    rw [pgen] at h
    split at h
    · cases h
    · exact polyLegal_pmul h

theorem polyLegal_push {a v : List Byte} {c : Byte}
    (h : (if a.length ≥ Config.polyMax then .error .plen else .ok (strip (a ++ [c])) : Except FaultCode (List Byte)) = .ok v) :
    PolyLegal v := by
  split at h
  · cases h
  · cases h
    refine polyLegal_strip ?_
    rw [List.length_append, List.length_singleton]
    omega

/-- The commands that write RES and nothing else: SCORE, EVAL and ENCODE write more (R174, R176, R196). -/
def writesOnlyRes : Instr → Bool
  | .score | .eval | .encode => false
  | i => writesRes i

theorem writesRes_of_writesOnlyRes {i : Instr} (h : writesOnlyRes i = true) : writesRes i = true := by
  cases i with
  | score | eval | encode => rfl
  | _ => exact h

/-- What command `i`, complete, makes of the state `s`: the commands that write RES alone are one case, those that write a
polynomial register another, and each other command names its own write. -/
inductive Completes (s : State) : Instr → State → Prop
  | nop : Completes s .nop s
  | result {i : Instr} (v : Word) (hi : writesOnlyRes i = true) : Completes s i (s.setRes v)
  | poly {i : Instr} {p : PReg} {v : List Byte} (hi : destPoly i = some p) (hv : s.PolysLegal → PolyLegal v) :
      Completes s i (s.setPoly p v)
  | iclr : Completes s .iclr { s with ilen := 0 }
  | ipush (b : Byte) : Completes s (.ipush b) (ipushState b s)
  | setlvl {c : Nat} (hc : c ≤ 3) : Completes s (.setlvl c) { s with level := BitVec.ofNat 2 c }
  | setver {v : Nat} (hv : 1 ≤ v ∧ v ≤ Config.maxVersion) : Completes s (.setver v) { s with version := BitVec.ofNat 4 v }
  | wrd {k : Nat} (b : Byte) (hk : k < Config.dbufSize) : Completes s (.wrd k b) { s with dbuf := s.dbuf.write k b }
  | selver : Completes s .selver (selverState s)
  | pack : Completes s .pack (packState s)
  | rsenc {es : List Byte} (hes : ecBytes s.dbuf (withOffsets 0 (blocks s.version.toNat s.level)) = .ok es) :
      Completes s .rsenc { s with ecbuf := s.ecbuf.writeBlock 0 es }
  | ilv : Completes s .ilv (ilvState s)
  | build {m : Nat} (hm : m ≤ 7) : Completes s (.build m) (buildState m s)
  | score : Completes s .score (scoreState s)
  | eval : Completes s .eval (evalState s)
  | wrfmt : Completes s .wrfmt (wrfmtState s)
  | final : Completes s .final (finalState s)
  | encode {u : State} (hu : rsencState (packState (selverState s)) = .ok u) :
      Completes s .encode (finalState (evalState (ilvState u)))

/-- The three outcomes of a command word in a state: discarded, complete, fault entry (R241). -/
inductive Answers (i : Instr) (s : State) : State → Prop
  | discarded (he : s.err ≠ 0) : Answers i s s
  | complete {t : State} (he : s.err = 0) (ht : Completes s i t) : Answers i s t
  | fault (he : s.err = 0) (c : FaultCode) : Answers i s (s.raise c (encode i))

theorem answers_of_command {i : Instr} {s t : State} {f : State → Except FaultCode State}
    (hi : exec i s = command (encode i) s f) (h : exec i s = .next t) (hf : ∀ u, f s = .ok u → Completes s i u) :
    Answers i s t := by
  obtain ⟨he, rfl⟩ | ⟨he, ht⟩ | ⟨he, c, -, rfl⟩ := command_cases (hi.symm.trans h)
  · exact .discarded he
  · exact .complete he (hf t ht)
  · exact .fault he c

theorem answers_of_total {i : Instr} {s t : State} {g : State → State}
    (hi : exec i s = command (encode i) s fun s => .ok (g s)) (h : exec i s = .next t) (hg : Completes s i (g s)) :
    Answers i s t :=
  answers_of_command hi h fun _ hu => Except.ok.inj hu ▸ hg

theorem answers_of_inRange {i : Instr} {s t : State} {ok : State → Bool} {g : State → State}
    (hi : exec i s = command (encode i) s fun s => inRange (ok s) (g s)) (h : exec i s = .next t)
    (hg : ok s = true → Completes s i (g s)) : Answers i s t :=
  answers_of_command hi h fun _ hu => by
    obtain ⟨hok, rfl⟩ := inRange_eq_ok.1 hu
    exact hg hok

theorem answers_of_storePoly {i : Instr} {s t : State} {p : PReg} {r : State → Except FaultCode (List Byte)}
    (hi : exec i s = command (encode i) s fun s => storePoly s p (r s)) (h : exec i s = .next t)
    (hp : destPoly i = some p) (hr : ∀ v, r s = .ok v → s.PolysLegal → PolyLegal v) : Answers i s t :=
  answers_of_command hi h fun _ hu => by
    obtain ⟨v, hv, rfl⟩ := storePoly_eq_ok.1 hu
    exact .poly hp (hr v hv)

/-- ENCODE completes where its RSENC does, with the stages in order (R196). -/
theorem encodeState_eq {s t : State} (h : encodeState s = .ok t) :
    ∃ u, rsencState (packState (selverState s)) = .ok u ∧ t = finalState (evalState (ilvState u)) := by
  unfold encodeState at h
  split at h
  · cases h
  · next u hu => exact ⟨u, hu, (Except.ok.inj h).symm⟩

/-- Everything a command but SRST can do. -/
theorem exec_answers {i : Instr} {s t : State} (hi : i ≠ .srst) (h : exec i s = .next t) : Answers i s t := by
  cases i with
  | srst => exact absurd rfl hi
  | nop => exact answers_of_total (execNop.eq_1 s) h .nop
  | rdcsr n =>
    refine answers_of_command (execRdcsr.eq_1 n s) h fun t ht => ?_
    split at ht <;> cases ht
    exact .result _ rfl
  | gexp n => exact answers_of_total (execGexp.eq_1 n s) h (.result _ rfl)
  | glog n =>
    refine answers_of_command (execGlog.eq_1 n s) h fun t ht => ?_
    split at ht <;> cases ht
    exact .result _ rfl
  | rdexp k => exact answers_of_total (execRdexp.eq_1 k s) h (.result _ rfl)
  | pclr p => exact answers_of_total (execPclr.eq_1 p s) h (.poly rfl fun _ => polyLegal_nil)
  | ppush p c => exact answers_of_storePoly (execPpush.eq_1 p c s) h rfl fun v hv _ => polyLegal_push hv
  | pmul pd pa pb => exact answers_of_storePoly (execPmul.eq_1 pd pa pb s) h rfl fun v hv _ => polyLegal_pmul hv
  | pmod pd pa pb =>
    exact answers_of_storePoly (execPmod.eq_1 pd pa pb s) h rfl fun v hv hs => polyLegal_pmod (hs pa) hv
  | pgen p n => exact answers_of_storePoly (execPgen.eq_1 p n s) h rfl fun v hv _ => polyLegal_pgen hv
  | plen p => exact answers_of_total (execPlen.eq_1 p s) h (.result _ rfl)
  | pget p k => exact answers_of_inRange (execPget.eq_1 p k s) h fun _ => .result _ rfl
  | iclr => exact answers_of_total (execIclr.eq_1 s) h .iclr
  | ipush b => exact answers_of_total (execIpush.eq_1 b s) h (.ipush b)
  | setlvl c => exact answers_of_inRange (execSetlvl.eq_1 c s) h fun hc => .setlvl (by simpa using hc)
  | setver v => exact answers_of_inRange (execSetver.eq_1 v s) h fun hv => .setver (by simpa using hv)
  | wrd k b => exact answers_of_inRange (execWrd.eq_1 k b s) h fun hk => .wrd b (by simpa using hk)
  | selver => exact answers_of_total (execSelver.eq_1 s) h .selver
  | pack => exact answers_of_total (execPack.eq_1 s) h .pack
  | rsenc =>
    refine answers_of_command (execRsenc.eq_1 s) h fun t ht => ?_
    obtain ⟨es, hes, rfl⟩ := rsencState_eq ht
    exact .rsenc hes
  | ilv => exact answers_of_total (execIlv.eq_1 s) h .ilv
  | build m => exact answers_of_inRange (execBuild.eq_1 m s) h fun hm => .build (by simpa using hm)
  | score => exact answers_of_total (execScore.eq_1 s) h .score
  | eval => exact answers_of_total (execEval.eq_1 s) h .eval
  | wrfmt => exact answers_of_total (execWrfmt.eq_1 s) h .wrfmt
  | final => exact answers_of_total (execFinal.eq_1 s) h .final
  | encode =>
    refine answers_of_command (execEncode.eq_1 s) h fun t ht => ?_
    obtain ⟨u, hu, rfl⟩ := encodeState_eq ht
    exact .encode hu
  | fmt d => exact answers_of_inRange (execFmt.eq_1 d s) h fun _ => .result _ rfl
  | vinf d => exact answers_of_inRange (execVinf.eq_1 d s) h fun _ => .result _ rfl
  | rdi k => exact answers_of_inRange (execRdi.eq_1 k s) h fun _ => .result _ rfl
  | rdd k => exact answers_of_inRange (execRdd.eq_1 k s) h fun _ => .result _ rfl
  | rdec k => exact answers_of_inRange (execRdec.eq_1 k s) h fun _ => .result _ rfl
  | rdcw k => exact answers_of_inRange (execRdcw.eq_1 k s) h fun _ => .result _ rfl
  | rdmod row col => exact answers_of_inRange (execRdmod.eq_1 row col s) h fun _ => .result _ rfl

end Sys2Proof.Machine

/-! SUPPORT. The invariant of R31, kept by every update of the state, so by every command and by every step. -/
namespace Sys2Proof.Machine

/-! The lengths of what the stages write, for every version there is (R131, R132). -/

theorem dtotOf_le : ∀ v ∈ List.range 11, ∀ l : BitVec 2, dtotOf v l ≤ Config.dbufSize := by decide +kernel

/-- The number of EC codewords of all blocks. -/
def ecTotal (v : Nat) (l : BitVec 2) : Nat := ((blocks v l).map RSBlock.ec).sum

theorem ecTotal_le : ∀ v ∈ List.range 11, ∀ l : BitVec 2, ecTotal v l ≤ Config.ecbufSize := by decide +kernel

/-- The number of codewords that the columns of `interleave` give. -/
def interleavedLength (v : Nat) (l : BitVec 2) : Nat :=
  ((List.range (maxData (blocks v l))).map fun i => (blocks v l).countP fun b => i < b.data).sum +
    ecCountOf v l * (blocks v l).length

theorem interleavedLength_le : ∀ v ∈ List.range 11, ∀ l : BitVec 2, interleavedLength v l ≤ Config.cwSize := by
  decide +kernel

@[simp] theorem length_packBytes (v : Nat) (l : BitVec 2) (n : Nat) (m : Memory) :
    (packBytes v l n m).length = dtotOf v l := by
  simp [packBytes]

theorem map_fst_withOffsets (off : Nat) (bs : List RSBlock) : (withOffsets off bs).map Prod.fst = bs := by
  induction bs generalizing off with
  | nil => rfl
  | cons b bs ih => simp [withOffsets, ih]

theorem length_dataColumn (m : Memory) (off : Nat) (bs : List RSBlock) (i : Nat) :
    (dataColumn m (withOffsets off bs) i).length = bs.countP fun b => i < b.data := by
  conv_rhs => rw [← map_fst_withOffsets off bs, List.countP_map]
  rw [dataColumn, List.length_map, ← List.countP_eq_length_filter]
  rfl

@[simp] theorem length_ecColumn (m : Memory) (n ec i : Nat) : (ecColumn m n ec i).length = n := by simp [ecColumn]

theorem length_interleave (v : Nat) (l : BitVec 2) (d e : Memory) :
    (interleave v l d e).length = interleavedLength v l := by
  simp [interleave, interleavedLength, List.length_flatMap, length_dataColumn]

theorem length_ecBytes {m : Memory} {bs : List (RSBlock × Nat)} {es : List Byte} (hec : ∀ p ∈ bs, p.1.ec ∈ ecLengths)
    (h : ecBytes m bs = .ok es) : es.length = (bs.map fun p => p.1.ec).sum := by
  induction bs generalizing es with
  | nil => cases h; rfl
  | cons p bs ih =>
    obtain ⟨e, he, hlen⟩ := ecCodewords_ok (m.slice p.2 p.1.data) (hec p (by simp))
    simp only [ecBytes, he] at h
    split at h
    · cases h
    · next hes =>
      cases h
      simp [hlen, ih (fun q hq => hec q (List.mem_cons_of_mem _ hq)) hes]

theorem State.LegalVersion.mem_range {s : State} (h : s.LegalVersion) : s.version.toNat ∈ List.range 11 :=
  List.mem_range.2 (Nat.lt_succ_of_le h.2)

/-- RSENC of a legal version writes the EC codewords of all blocks (R134). -/
theorem length_ecBytes_of_legalVersion {s : State} {es : List Byte} (hs : s.LegalVersion)
    (h : ecBytes s.dbuf (withOffsets 0 (blocks s.version.toNat s.level)) = .ok es) :
    es.length = ecTotal s.version.toNat s.level := by
  rw [length_ecBytes (fun p hp => blocks_ec_mem _ hs.mem_range _ _ (withOffsets_fst hp)) h, ecTotal]
  conv_rhs => rw [← map_fst_withOffsets 0 (blocks s.version.toNat s.level), List.map_map]
  rfl

theorem selectVersion_mem (l : BitVec 2) (n : Nat) : 1 ≤ selectVersion l n ∧ selectVersion l n ≤ Config.maxVersion := by
  unfold selectVersion
  cases h : (List.range' 1 Config.maxVersion).find? fun v => n ≤ capacity v l with
  | none => decide
  | some v =>
    have := List.mem_of_find?_eq_some h
    rw [List.mem_range'_1] at this
    simp only [Option.getD_some]
    omega

theorem toNat_ofNat_of_le_maxVersion {v : Nat} (h : v ≤ Config.maxVersion) : (BitVec.ofNat 4 v).toNat = v := by
  rw [BitVec.toNat_ofNat]
  exact Nat.mod_eq_of_lt (h.trans_lt (by decide))

/-- SELVER picks a version there is, whatever VERSION held (R115). -/
theorem selverState_legalVersion (s : State) : (selverState s).LegalVersion := by
  obtain ⟨h1, h2⟩ := selectVersion_mem s.level s.ilen.toNat
  have hv : (selverState s).version.toNat = selectVersion s.level s.ilen.toNat := toNat_ofNat_of_le_maxVersion h2
  rw [State.LegalVersion, hv]
  exact ⟨h1, h2⟩

/-! Reset establishes the invariant. -/

theorem reset_inv : State.reset.Inv where
  version := by decide
  poly p := by cases p <;> decide
  cwlen := by decide
  err := by decide
  ecmd := by decide
  ibuf := by decide
  dbuf := by decide
  ecbuf := by decide
  cw := by decide

theorem toReset_inv (s : State) : s.toReset.Inv := { reset_inv with }

/-! Every other update keeps the invariant. Each proof names the fields that the update writes. -/

namespace State.Inv

variable {s : State}

theorem setRes (hs : s.Inv) (v : Word) : (s.setRes v).Inv := { hs with }

theorem raise (hs : s.Inv) (c : FaultCode) (w : Word) : (s.raise c w).Inv :=
  { hs with
    err := by show c.code.toNat ≤ 4; cases c <;> decide
    ecmd := fun h => absurd h c.code_ne_zero }

theorem setPoly (hs : s.Inv) (p : PReg) {v : List Byte} (hv : PolyLegal v) : (s.setPoly p v).Inv where
  version := by simpa [State.LegalVersion] using hs.version
  poly q := by
    rw [State.setPoly_poly]
    split
    · exact hv
    · exact hs.poly q
  cwlen := by simpa using hs.cwlen
  err := by simpa using hs.err
  ecmd := by simpa using hs.ecmd
  ibuf := by simpa using hs.ibuf
  dbuf := by simpa using hs.dbuf
  ecbuf := by simpa using hs.ecbuf
  cw := by simpa using hs.cw

theorem setIlen (hs : s.Inv) (n : BitVec 16) : State.Inv { s with ilen := n } := { hs with }

theorem setLevel (hs : s.Inv) (l : BitVec 2) : State.Inv { s with level := l } := { hs with }

theorem setVersion (hs : s.Inv) {v : Nat} (hv : 1 ≤ v ∧ v ≤ Config.maxVersion) :
    State.Inv { s with version := BitVec.ofNat 4 v } :=
  { hs with version := by rwa [State.LegalVersion, toNat_ofNat_of_le_maxVersion hv.2] }

theorem writeDbuf (hs : s.Inv) {k : Nat} (hk : k < Config.dbufSize) (b : Byte) :
    State.Inv { s with dbuf := s.dbuf.write k b } :=
  { hs with dbuf := Memory.holds_write hs.dbuf hk b }

theorem ipushState (hs : s.Inv) (b : Byte) : (ipushState b s).Inv :=
  { hs with
    ibuf := by
      show Memory.Holds _ (if _ then _ else _)
      split
      · next hlt => exact Memory.holds_write hs.ibuf hlt b
      · exact hs.ibuf }

theorem selverState (hs : s.Inv) : (selverState s).Inv := { hs with version := selverState_legalVersion s }

theorem packState (hs : s.Inv) : (packState s).Inv :=
  { hs with
    dbuf := Memory.holds_writeBlock hs.dbuf (by simpa using dtotOf_le _ hs.version.mem_range s.level) }

theorem writeEcbuf (hs : s.Inv) {es : List Byte}
    (hes : ecBytes s.dbuf (withOffsets 0 (blocks s.version.toNat s.level)) = .ok es) :
    State.Inv { s with ecbuf := s.ecbuf.writeBlock 0 es } := by
  refine { hs with ecbuf := Memory.holds_writeBlock hs.ecbuf ?_ }
  rw [length_ecBytes_of_legalVersion hs.version hes, Nat.zero_add]
  exact ecTotal_le _ hs.version.mem_range _

theorem ilvState (hs : s.Inv) : (ilvState s).Inv := by
  have hlen : (interleave s.version.toNat s.level s.dbuf s.ecbuf).length ≤ Config.cwSize := by
    rw [length_interleave]
    exact interleavedLength_le _ hs.version.mem_range _
  exact
    { hs with
      cwlen := (BitVec.toNat_ofNat _ _).trans_le ((Nat.mod_le _ _).trans hlen)
      cw := Memory.holds_writeBlock hs.cw (by simpa using hlen) }

theorem buildState (hs : s.Inv) (m : Nat) : (buildState m s).Inv := { hs with }

theorem scoreState (hs : s.Inv) : (scoreState s).Inv := { hs with }

theorem trialState (hs : s.Inv) (m : Nat) : (trialState m s).Inv := { (hs.buildState m).scoreState with }

theorem trialsState (hs : s.Inv) (ms : List Nat) : (trialsState ms s).Inv := by
  induction ms generalizing s with
  | nil => exact hs
  | cons m ms ih => exact ih (hs.trialState m)

theorem bestAndRes (hs : s.Inv) (b : BitVec 3) (r : Word) : State.Inv { s with best := b, res := r } := { hs with }

theorem evalState (hs : s.Inv) : (evalState s).Inv := (hs.trialsState (List.range 8)).bestAndRes _ _

theorem wrfmtState (hs : s.Inv) : (wrfmtState s).Inv := { hs with }

theorem finalState (hs : s.Inv) : (finalState s).Inv := (hs.buildState _).wrfmtState

end State.Inv

/-- A command that completes keeps the invariant. -/
theorem Completes.inv {i : Instr} {s t : State} (h : Completes s i t) (hs : s.Inv) : t.Inv := by
  cases h with
  | nop => exact hs
  | result v => exact hs.setRes v
  | poly _ hv => exact hs.setPoly _ (hv hs.poly)
  | iclr => exact hs.setIlen 0
  | ipush b => exact hs.ipushState b
  | setlvl => exact hs.setLevel _
  | setver hv => exact hs.setVersion hv
  | wrd b hk => exact hs.writeDbuf hk b
  | selver => exact hs.selverState
  | pack => exact hs.packState
  | rsenc hes => exact hs.writeEcbuf hes
  | ilv => exact hs.ilvState
  | build => exact hs.buildState _
  | score => exact hs.scoreState
  | eval => exact hs.evalState
  | wrfmt => exact hs.wrfmtState
  | final => exact hs.finalState
  | encode hu =>
    obtain ⟨es, hes, rfl⟩ := rsencState_eq hu
    exact (hs.selverState.packState.writeEcbuf hes).ilvState.evalState.finalState

theorem exec_inv {i : Instr} {s t : State} (hs : s.Inv) (h : exec i s = .next t) : t.Inv := by
  by_cases hi : i = .srst
  · subst hi
    cases h
    exact toReset_inv _
  · cases exec_answers hi h with
    | discarded => exact hs
    | complete _ ht => exact ht.inv hs
    | fault _ c => exact hs.raise c _

/-- Everything the acceptance of a word can do (R65). -/
theorem acceptWord_cases {w : Word} {s t : State} (h : acceptWord w s = .next t) :
    t = s ∨ t = s.toReset ∨ t = s.raise .illegal w ∨ ∃ i, exec i s = .next t := by
  by_cases he : s.err = 0
  · cases hd : decode w with
    | error e => exact .inr (.inr (.inl (Host.Outcome.next.inj ((acceptWord_of_error he hd).symm.trans h)).symm))
    | ok i => exact .inr (.inr (.inr ⟨i, (acceptWord_of_ok he hd).symm.trans h⟩))
  · by_cases hw : w = srstWord
    · subst hw
      exact .inr (.inl (Host.Outcome.next.inj ((acceptWord_srst s).symm.trans h)).symm)
    · exact .inl (Host.Outcome.next.inj ((acceptWord_of_faulted he hw).symm.trans h)).symm

theorem acceptWord_inv {w : Word} {s t : State} (hs : s.Inv) (h : acceptWord w s = .next t) : t.Inv := by
  obtain rfl | rfl | rfl | ⟨i, hi⟩ := acceptWord_cases h
  · exact hs
  · exact toReset_inv _
  · exact hs.raise _ _
  · exact exec_inv hs hi

/-- Settles O12. -/
theorem resetStateMeetsTheInvariant : Obligations.ResetStateMeetsTheInvariant := reset_inv

/-- Settles O13: the entry sampled is no part of the invariant, and idle ports, reset and an accepted word keep it. -/
theorem everyStepKeepsTheInvariant : Obligations.EveryStepKeepsTheInvariant := by
  intro s t hs h
  have hrest (rest : List PortIn) : State.Inv { s with host := rest } := { hs with }
  obtain ⟨-, hstep⟩ | ⟨p, rest, -, ⟨-, hstep⟩ | ⟨-, -, hstep⟩ | ⟨-, -, hstep⟩⟩ := step_cases s
  all_goals rw [hstep] at h
  · cases h; exact hs
  · cases h; exact toReset_inv _
  · cases h; exact hrest rest
  · exact acceptWord_inv (hrest rest) h

end Sys2Proof.Machine

/-! SUPPORT. Who writes what: for each register, flag, polynomial register and buffer, a command that completes and is not one
of its writers leaves it (R12 to R27). The writers are the named cases of each proof, contradicting the hypothesis that the
command is none; every other case is the frame of one update. ENCODE's frame goes stage by stage, because the kernel would
run the trials of EVAL to compare the states by computation. -/
namespace Sys2Proof.Machine

namespace Completes

variable {i : Instr} {s t : State}

/-! What every command leaves. -/

theorem err_eq (h : Completes s i t) : t.err = s.err := by
  cases h with
  | encode hu =>
    obtain ⟨es, -, rfl⟩ := rsencState_eq hu
    exact (finalState_err _).trans (evalState_err _)
  | _ => simp

theorem host_eq (h : Completes s i t) : t.host = s.host := by
  cases h with
  | encode hu =>
    obtain ⟨es, -, rfl⟩ := rsencState_eq hu
    exact (finalState_host _).trans (evalState_host _)
  | _ => simp

/-! The registers that ENCODE does not write. -/

theorem level_eq (h : Completes s i t) (hi : ∀ c, i ≠ .setlvl c) : t.level = s.level := by
  cases h with
  | setlvl => exact absurd rfl (hi _)
  | encode hu =>
    obtain ⟨es, -, rfl⟩ := rsencState_eq hu
    exact (finalState_level _).trans (evalState_level _)
  | _ => simp

theorem ilen_eq (h : Completes s i t) (hclr : i ≠ .iclr) (hpush : ∀ b, i ≠ .ipush b) : t.ilen = s.ilen := by
  cases h with
  | iclr => exact absurd rfl hclr
  | ipush => exact absurd rfl (hpush _)
  | encode hu =>
    obtain ⟨es, -, rfl⟩ := rsencState_eq hu
    exact (finalState_ilen _).trans (evalState_ilen _)
  | _ => simp

theorem poly_eq (h : Completes s i t) {p : PReg} (hi : destPoly i ≠ some p) : t.poly p = s.poly p := by
  cases h with
  | @poly _ q v hq =>
    have hpq : p ≠ q := by rintro rfl; exact hi hq
    rw [State.setPoly_poly, if_neg hpq]
  | encode hu =>
    obtain ⟨es, -, rfl⟩ := rsencState_eq hu
    rw [finalState_poly, evalState_poly]
    cases p <;> rfl
  | _ => cases p <;> simp [State.poly]

theorem ibuf_eq (h : Completes s i t) (hi : ∀ b, i ≠ .ipush b) : t.ibuf = s.ibuf := by
  cases h with
  | ipush => exact absurd rfl (hi _)
  | encode hu =>
    obtain ⟨es, -, rfl⟩ := rsencState_eq hu
    exact (finalState_ibuf _).trans (evalState_ibuf _)
  | _ => simp

/-! The registers that ENCODE writes. -/

theorem res_eq (h : Completes s i t) (hi : writesRes i = false) : t.res = s.res := by
  cases h with
  | result v hw => exact absurd (writesRes_of_writesOnlyRes hw) (by simp [hi])
  | score | eval | encode => cases hi
  | _ => simp

theorem version_eq (h : Completes s i t) (hset : ∀ v, i ≠ .setver v) (hsel : i ≠ .selver) (henc : i ≠ .encode) :
    t.version = s.version := by
  cases h with
  | setver => exact absurd rfl (hset _)
  | selver => exact absurd rfl hsel
  | encode => exact absurd rfl henc
  | _ => simp

theorem mask_eq (h : Completes s i t) (hbuild : ∀ m, i ≠ .build m) (heval : i ≠ .eval) (hfin : i ≠ .final)
    (henc : i ≠ .encode) : t.mask = s.mask := by
  cases h with
  | build => exact absurd rfl (hbuild _)
  | eval => exact absurd rfl heval
  | final => exact absurd rfl hfin
  | encode => exact absurd rfl henc
  | _ => simp

theorem best_eq (h : Completes s i t) (heval : i ≠ .eval) (henc : i ≠ .encode) : t.best = s.best := by
  cases h with
  | eval => exact absurd rfl heval
  | encode => exact absurd rfl henc
  | _ => simp

theorem cwlen_eq (h : Completes s i t) (hilv : i ≠ .ilv) (henc : i ≠ .encode) : t.cwlen = s.cwlen := by
  cases h with
  | ilv => exact absurd rfl hilv
  | encode => exact absurd rfl henc
  | _ => simp

theorem ovf_eq (h : Completes s i t) (hsel : i ≠ .selver) (hpack : i ≠ .pack) (henc : i ≠ .encode) : t.ovf = s.ovf := by
  cases h with
  | selver => exact absurd rfl hsel
  | pack => exact absurd rfl hpack
  | encode => exact absurd rfl henc
  | _ => simp

theorem final_eq (h : Completes s i t) (hbuild : ∀ m, i ≠ .build m) (heval : i ≠ .eval) (hwrfmt : i ≠ .wrfmt)
    (hfin : i ≠ .final) (henc : i ≠ .encode) : t.final = s.final := by
  cases h with
  | build => exact absurd rfl (hbuild _)
  | eval => exact absurd rfl heval
  | wrfmt => exact absurd rfl hwrfmt
  | final => exact absurd rfl hfin
  | encode => exact absurd rfl henc
  | _ => simp

theorem penalties_eq (h : Completes s i t) (hscore : i ≠ .score) (heval : i ≠ .eval) (henc : i ≠ .encode) :
    t.pena = s.pena ∧ t.penb = s.penb ∧ t.penc = s.penc := by
  cases h with
  | score => exact absurd rfl hscore
  | eval => exact absurd rfl heval
  | encode => exact absurd rfl henc
  | _ => simp

theorem pen_eq (h : Completes s i t) (heval : i ≠ .eval) (henc : i ≠ .encode) : t.pen = s.pen := by
  cases h with
  | eval => exact absurd rfl heval
  | encode => exact absurd rfl henc
  | _ => simp

theorem dbuf_eq (h : Completes s i t) (hwrd : ∀ k b, i ≠ .wrd k b) (hpack : i ≠ .pack) (henc : i ≠ .encode) :
    t.dbuf = s.dbuf := by
  cases h with
  | wrd => exact absurd rfl (hwrd _ _)
  | pack => exact absurd rfl hpack
  | encode => exact absurd rfl henc
  | _ => simp

theorem ecbuf_eq (h : Completes s i t) (hrs : i ≠ .rsenc) (henc : i ≠ .encode) : t.ecbuf = s.ecbuf := by
  cases h with
  | rsenc => exact absurd rfl hrs
  | encode => exact absurd rfl henc
  | _ => simp

theorem cw_eq (h : Completes s i t) (hilv : i ≠ .ilv) (henc : i ≠ .encode) : t.cw = s.cw := by
  cases h with
  | ilv => exact absurd rfl hilv
  | encode => exact absurd rfl henc
  | _ => simp

theorem mat_eq (h : Completes s i t) (hbuild : ∀ m, i ≠ .build m) (heval : i ≠ .eval) (hwrfmt : i ≠ .wrfmt)
    (hfin : i ≠ .final) (henc : i ≠ .encode) : t.mat = s.mat := by
  cases h with
  | build => exact absurd rfl (hbuild _)
  | eval => exact absurd rfl heval
  | wrfmt => exact absurd rfl hwrfmt
  | final => exact absurd rfl hfin
  | encode => exact absurd rfl henc
  | _ => simp

end Completes

/-- A part of the state that the fault entry leaves, and the command where it completes, is left by the command: a discarded
one leaves everything. -/
theorem exec_frame {α : Sort _} (f : State → α) {i : Instr} {s t : State} (hi : i ≠ .srst) (h : exec i s = .next t)
    (hraise : ∀ c w, f (s.raise c w) = f s) (hdone : Completes s i t → f t = f s) : f t = f s := by
  cases exec_answers hi h with
  | discarded => rfl
  | complete _ ht => exact hdone ht
  | fault _ c => exact hraise c _

/-- Settles O20: only a completing command writes RES, and it leaves ERR at 0. -/
theorem resIsWrittenOnlyByItsWriters : Obligations.ResIsWrittenOnlyByItsWriters := by
  intro i s t h hi hor
  cases exec_answers hi h with
  | discarded => rfl
  | fault => exact State.raise_res ..
  | complete he ht => exact ht.res_eq (hor.resolve_right fun hne => hne (ht.err_eq.trans he))

/-- Settles O21. -/
theorem symbolRegistersAreWrittenOnlyByTheirWriters : Obligations.SymbolRegistersAreWrittenOnlyByTheirWriters := by
  intro i s t h hi
  refine ⟨fun hset => ?_, fun hset hsel henc => ?_, fun hbuild heval hfin henc => ?_, fun heval henc => ?_,
    fun hclr hpush => ?_, fun hilv henc => ?_, ?_⟩
  · exact exec_frame State.level hi h (fun _ _ => rfl) (·.level_eq hset)
  · exact exec_frame State.version hi h (fun _ _ => rfl) (·.version_eq hset hsel henc)
  · exact exec_frame State.mask hi h (fun _ _ => rfl) (·.mask_eq hbuild heval hfin henc)
  · exact exec_frame State.best hi h (fun _ _ => rfl) (·.best_eq heval henc)
  · exact exec_frame State.ilen hi h (fun _ _ => rfl) (·.ilen_eq hclr hpush)
  · exact exec_frame State.cwlen hi h (fun _ _ => rfl) (·.cwlen_eq hilv henc)
  · exact exec_frame State.host hi h (fun _ _ => rfl) (·.host_eq)

/-- Settles O22. -/
theorem flagsAndPenaltiesAreWrittenOnlyByTheirWriters : Obligations.FlagsAndPenaltiesAreWrittenOnlyByTheirWriters := by
  intro i s t h hi
  refine ⟨fun hsel hpack henc => ?_, fun hbuild heval hwrfmt hfin henc => ?_, fun hscore heval henc => ?_,
    fun heval henc => ?_⟩
  · exact exec_frame State.ovf hi h (fun _ _ => rfl) (·.ovf_eq hsel hpack henc)
  · exact exec_frame State.final hi h (fun _ _ => rfl) (·.final_eq hbuild heval hwrfmt hfin henc)
  · cases exec_answers hi h with
    | discarded => exact ⟨rfl, rfl, rfl⟩
    | complete _ ht => exact ht.penalties_eq hscore heval henc
    | fault => exact ⟨rfl, rfl, rfl⟩
  · exact exec_frame State.pen hi h (fun _ _ => rfl) (·.pen_eq heval henc)

/-- Settles O23. -/
theorem storageIsWrittenOnlyByItsWriters : Obligations.StorageIsWrittenOnlyByItsWriters := by
  intro i s t h hi
  refine ⟨fun p hp => ?_, fun hpush => ?_, fun hwrd hpack henc => ?_, fun hrs henc => ?_, fun hilv henc => ?_,
    fun hbuild heval hwrfmt hfin henc => ?_⟩
  · exact exec_frame (State.poly · p) hi h (fun _ _ => State.raise_poly ..) (·.poly_eq hp)
  · exact exec_frame State.ibuf hi h (fun _ _ => rfl) (·.ibuf_eq hpush)
  · exact exec_frame State.dbuf hi h (fun _ _ => rfl) (·.dbuf_eq hwrd hpack henc)
  · exact exec_frame State.ecbuf hi h (fun _ _ => rfl) (·.ecbuf_eq hrs henc)
  · exact exec_frame State.cw hi h (fun _ _ => rfl) (·.cw_eq hilv henc)
  · exact exec_frame State.mat hi h (fun _ _ => rfl) (·.mat_eq hbuild heval hwrfmt hfin henc)

theorem reset_atReset : State.reset.AtReset where
  res := rfl
  err := rfl
  ecmd := rfl
  ovf := rfl
  final := rfl
  level := rfl
  version := rfl
  mask := rfl
  best := rfl
  ilen := rfl
  cwlen := rfl
  pena := rfl
  penb := rfl
  penc := rfl
  pen := by decide
  poly p := by cases p <;> rfl
  ibuf := Memory.read_nil
  dbuf := Memory.read_nil
  ecbuf := Memory.read_nil
  cw := Memory.read_nil
  mat r c := by simp [State.reset, Matrix.read]

/-- Settles O11. -/
theorem resetStateIsTheTable : Obligations.ResetStateIsTheTable := ⟨reset_atReset, by decide, by decide, by decide⟩

end Sys2Proof.Machine

/-! SUPPORT. What ENCODE's outcome depends on (R32): two runs are compared stage by stage. Each stage reads only what the
stages before it have written and the payload, so what the two states agree on grows from stage to stage. -/
namespace Sys2Proof.Machine

/-! A stage that reads a buffer in a range gives the same for two buffers that agree there. -/

theorem Memory.slice_congr {m m' : Memory} {start n : Nat} (h : ∀ k < n, m.read (start + k) = m'.read (start + k)) :
    m.slice start n = m'.slice start n :=
  List.map_congr_left fun k hk => h k (List.mem_range.1 hk)

/-- After the same block write two buffers agree in the block, whatever they held. -/
theorem Memory.read_writeBlock_congr (m m' : Memory) {bs bs' : List Byte} (h : bs = bs') {i : Nat} (hi : i < bs.length) :
    (m.writeBlock 0 bs).read i = (m'.writeBlock 0 bs').read i := by
  subst h
  rw [Memory.read_writeBlock, Memory.read_writeBlock, if_pos (by omega), if_pos (by omega)]

theorem packBytes_congr {m m' : Memory} {n : Nat} (v : Nat) (l : BitVec 2)
    (h : ∀ i < min n Config.ibufSize, m.read i = m'.read i) : packBytes v l n m = packBytes v l n m' := by
  have hs : m.slice 0 (min n Config.ibufSize) = m'.slice 0 (min n Config.ibufSize) :=
    Memory.slice_congr fun k hk => by simpa using h k hk
  simp only [packBytes, payloadBits, hs]

theorem length_payloadBits_congr (v n : Nat) (m m' : Memory) : (payloadBits v n m).length = (payloadBits v n m').length := by
  simp [payloadBits, putBits, List.length_flatMap]

/-- The data codewords of a block lie before those of the blocks after it (R131). -/
theorem offset_add_data_le {off : Nat} {bs : List RSBlock} {p : RSBlock × Nat} (h : p ∈ withOffsets off bs) :
    p.2 + p.1.data ≤ off + (bs.map RSBlock.data).sum := by
  induction bs generalizing off with
  | nil => simp [withOffsets] at h
  | cons b bs ih =>
    rw [List.map_cons, List.sum_cons]
    obtain rfl | h := List.mem_cons.1 h
    · dsimp only
      omega
    · have := ih h
      omega

theorem ecBytes_congr {m m' : Memory} {bs : List (RSBlock × Nat)}
    (h : ∀ p ∈ bs, ∀ k < p.1.data, m.read (p.2 + k) = m'.read (p.2 + k)) : ecBytes m bs = ecBytes m' bs := by
  induction bs with
  | nil => rfl
  | cons p bs ih =>
    simp only [ecBytes, Memory.slice_congr (h p (by simp)), ih fun q hq => h q (List.mem_cons_of_mem _ hq)]

theorem dataColumn_congr {m m' : Memory} {bs : List (RSBlock × Nat)} (i : Nat)
    (h : ∀ p ∈ bs, ∀ k < p.1.data, m.read (p.2 + k) = m'.read (p.2 + k)) : dataColumn m bs i = dataColumn m' bs i :=
  List.map_congr_left fun p hp => by
    obtain ⟨hmem, hi⟩ := List.mem_filter.1 hp
    exact h p hmem i (by simpa using hi)

theorem ecColumn_congr {m m' : Memory} {n ec i : Nat} (hi : i < ec) (h : ∀ k < n * ec, m.read k = m'.read k) :
    ecColumn m n ec i = ecColumn m' n ec i :=
  List.map_congr_left fun b hb => h _ <| by
    have hb := List.mem_range.1 hb
    calc b * ec + i < b * ec + ec := by omega
      _ = (b + 1) * ec := by rw [Nat.add_mul, Nat.one_mul]
      _ ≤ n * ec := Nat.mul_le_mul_right ec hb

theorem interleave_congr {v : Nat} {l : BitVec 2} {d d' e e' : Memory} (hd : ∀ i < dtotOf v l, d.read i = d'.read i)
    (he : ∀ i < (blocks v l).length * ecCountOf v l, e.read i = e'.read i) : interleave v l d e = interleave v l d' e' := by
  have hdata (i : Nat) : dataColumn d (withOffsets 0 (blocks v l)) i = dataColumn d' (withOffsets 0 (blocks v l)) i :=
    dataColumn_congr i fun p hp k hk => hd _ (by have := offset_add_data_le hp; rw [dtotOf]; omega)
  have hec : ∀ i ∈ List.range (ecCountOf v l), ecColumn e (blocks v l).length (ecCountOf v l) i =
      ecColumn e' (blocks v l).length (ecCountOf v l) i :=
    fun i hi => ecColumn_congr (List.mem_range.1 hi) he
  rw [interleave, interleave, funext hdata, List.flatMap_congr hec]

theorem builtMatrix_congr {cw cw' : Memory} {n : Nat} (v m : Nat) (h : ∀ i < n, cw.read i = cw'.read i) :
    builtMatrix v cw n m = builtMatrix v cw' n m := by
  have hbit (k : Nat) : streamBit cw n k = streamBit cw' n k := by
    by_cases hk : k / 8 < n
    · rw [streamBit, streamBit, h _ hk]
    · simp [streamBit, hk]
  simp only [builtMatrix, builtCell, placedCell, hbit]

/-- Every row of the block table gives all its blocks one ecCount (R132(a)). -/
theorem ecTotal_eq : ∀ v ∈ List.range 11, ∀ l : BitVec 2, ecTotal v l = (blocks v l).length * ecCountOf v l := by
  decide +kernel

/-! What the two states agree on after PACK, RSENC, ILV, the trials of EVAL, and EVAL. -/

/-- VERSION, LEVEL, OVF and the data codewords, as PACK leaves them. -/
structure State.SameData (s t : State) : Prop where
  version : s.version = t.version
  level : s.level = t.level
  ovf : s.ovf = t.ovf
  dbuf : ∀ i < s.dtot, s.dbuf.read i = t.dbuf.read i

/-- With them the EC codewords, as RSENC leaves them. -/
structure State.SameBlocks (s t : State) : Prop extends State.SameData s t where
  ecbuf : ∀ i < (blocks s.version.toNat s.level).length * ecCountOf s.version.toNat s.level,
    s.ecbuf.read i = t.ecbuf.read i

/-- With them the final codeword sequence, as ILV leaves it; BUILD and SCORE leave all of it. -/
structure State.SameSequence (s t : State) : Prop extends State.SameBlocks s t where
  cwlen : s.cwlen = t.cwlen
  cw : ∀ i < s.cwlen.toNat, s.cw.read i = t.cw.read i

/-- With them the penalties, as the eight trials leave them. -/
structure State.SameTrials (s t : State) : Prop extends State.SameSequence s t where
  pena : s.pena = t.pena
  penb : s.penb = t.penb
  penc : s.penc = t.penc
  pen : s.pen = t.pen

/-- With them BEST and RES, as EVAL leaves them. -/
structure State.SameEvaluation (s t : State) : Prop extends State.SameTrials s t where
  best : s.best = t.best
  res : s.res = t.res

variable {s t : State}

/-- SELVER reads LEVEL and ILEN (R115). -/
theorem selverState_version_congr (hl : s.level = t.level) (hn : s.ilen = t.ilen) :
    (selverState s).version = (selverState t).version := by
  rw [selverState, selverState, hl, hn]

/-- PACK reads VERSION, LEVEL, ILEN and the payload (R117). -/
theorem packState_sameData (hv : s.version = t.version) (hl : s.level = t.level) (hn : s.ilen = t.ilen)
    (hp : ∀ i < min s.ilen.toNat Config.ibufSize, s.ibuf.read i = t.ibuf.read i) :
    (packState s).SameData (packState t) := by
  have hbytes : packBytes s.version.toNat s.level s.ilen.toNat s.ibuf =
      packBytes t.version.toNat t.level t.ilen.toNat t.ibuf := by
    rw [packBytes_congr _ _ hp, hv, hl, hn]
  refine ⟨hv, hl, ?_, fun i hi => Memory.read_writeBlock_congr _ _ hbytes ?_⟩
  · simp only [packState, State.dtot, length_payloadBits_congr _ _ s.ibuf t.ibuf, hv, hl, hn]
  · rwa [length_packBytes]

theorem State.SameData.ecBytes_eq (h : s.SameData t) :
    ecBytes s.dbuf (withOffsets 0 (blocks s.version.toNat s.level)) =
      ecBytes t.dbuf (withOffsets 0 (blocks t.version.toNat t.level)) := by
  rw [← h.version, ← h.level]
  refine ecBytes_congr fun p hp k hk => h.dbuf _ ?_
  have := offset_add_data_le hp
  rw [State.dtot, dtotOf]
  omega

/-- RSENC reads the data codewords (R134). -/
theorem State.SameData.rsencState (h : s.SameData t) (hv : s.LegalVersion) {u u' : State} (hu : rsencState s = .ok u)
    (hu' : Machine.rsencState t = .ok u') : u.SameBlocks u' := by
  obtain ⟨es, hes, rfl⟩ := rsencState_eq hu
  obtain ⟨es', hes', rfl⟩ := rsencState_eq hu'
  obtain rfl : es = es' := Except.ok.inj (hes.symm.trans (h.ecBytes_eq.trans hes'))
  refine { h with ecbuf := fun i hi => ?_ }
  have hlen : i < es.length := by
    rwa [length_ecBytes_of_legalVersion hv hes, ecTotal_eq _ hv.mem_range]
  exact Memory.read_writeBlock_congr _ _ rfl hlen

/-- ILV reads the data codewords and the EC codewords (R136). -/
theorem State.SameBlocks.ilvState (h : s.SameBlocks t) : (ilvState s).SameSequence (ilvState t) := by
  have hk : interleave s.version.toNat s.level s.dbuf s.ecbuf = interleave t.version.toNat t.level t.dbuf t.ecbuf := by
    rw [← h.version, ← h.level, interleave_congr h.dbuf h.ecbuf]
  refine { h with
    cwlen := congrArg (fun k : List Byte => BitVec.ofNat 9 k.length) hk
    cw := fun i hi => Memory.read_writeBlock_congr _ _ hk ?_ }
  exact Nat.lt_of_lt_of_le hi ((BitVec.toNat_ofNat _ _).trans_le (Nat.mod_le _ _))

/-- BUILD reads the final codewords (R159). -/
theorem State.SameSequence.mat_buildState (h : s.SameSequence t) (m : Nat) : (buildState m s).mat = (buildState m t).mat := by
  show builtMatrix _ _ _ m = builtMatrix _ _ _ m
  rw [← h.version, ← h.cwlen, builtMatrix_congr _ _ h.cw]

/-- SCORE reads the symbol and its size (R174). -/
theorem scoreState_res_congr (hv : s.version = t.version) (hm : s.mat = t.mat) : (scoreState s).res = (scoreState t).res := by
  simp only [scoreState, State.nmod, hv, hm]

theorem scoreState_penalties_congr (hv : s.version = t.version) (hm : s.mat = t.mat) :
    (scoreState s).pena = (scoreState t).pena ∧ (scoreState s).penb = (scoreState t).penb ∧
      (scoreState s).penc = (scoreState t).penc := by
  simp only [scoreState, State.nmod, hv, hm, and_self]

theorem State.SameSequence.res_scoreState (h : s.SameSequence t) (m : Nat) :
    (scoreState (buildState m s)).res = (scoreState (buildState m t)).res :=
  scoreState_res_congr (s := buildState m s) (t := buildState m t) h.version (h.mat_buildState m)

/-- A trial writes PENA, PENB and PENC (R176). -/
theorem State.SameSequence.penalties_trialState (h : s.SameSequence t) (m : Nat) :
    (trialState m s).pena = (trialState m t).pena ∧ (trialState m s).penb = (trialState m t).penb ∧
      (trialState m s).penc = (trialState m t).penc :=
  scoreState_penalties_congr (s := buildState m s) (t := buildState m t) h.version (h.mat_buildState m)

theorem State.SameSequence.trialState (h : s.SameSequence t) (m : Nat) : (trialState m s).SameSequence (trialState m t) :=
  { h with }

theorem State.SameSequence.trialsState (h : s.SameSequence t) (ms : List Nat) :
    (trialsState ms s).SameSequence (trialsState ms t) := by
  induction ms generalizing s t with
  | nil => exact h
  | cons m ms ih => exact ih (h.trialState m)

/-- One trial writes its own total (R176). -/
theorem getElem_pen_trialState (m : Nat) (s : State) {k : Nat} (hk : k < 8) :
    (trialState m s).pen[k] = if m = k then (scoreState (buildState m s)).res else s.pen[k] :=
  Vector.getElem_setIfInBounds hk

/-- After the trials of a list, each total of the list is the same, and each that was. -/
theorem State.SameSequence.pen_trialsState (h : s.SameSequence t) {ms : List Nat} {k : Nat} (hk : k < 8)
    (hms : k ∈ ms ∨ s.pen[k] = t.pen[k]) : (Machine.trialsState ms s).pen[k] = (Machine.trialsState ms t).pen[k] := by
  induction ms generalizing s t with
  | nil => exact hms.resolve_left (by simp)
  | cons m ms ih =>
    refine ih (h.trialState m) (or_iff_not_imp_left.2 fun hmem => ?_)
    rw [getElem_pen_trialState m s hk, getElem_pen_trialState m t hk]
    split
    · exact h.res_scoreState m
    · next hne => exact hms.resolve_left (by simp [hmem, Ne.symm hne])

theorem trialsState_range_eight (s : State) :
    trialsState (List.range 8) s = trialState 7 (trialsState (List.range 7) s) := by
  rw [trialsState, List.range_succ, List.foldl_append]
  rfl

/-- The eight trials write every total, and the last of them PENA, PENB and PENC (R176). -/
theorem State.SameSequence.trials (h : s.SameSequence t) :
    (Machine.trialsState (List.range 8) s).SameTrials (Machine.trialsState (List.range 8) t) := by
  have hlast : (Machine.trialsState (List.range 8) s).pena = (Machine.trialsState (List.range 8) t).pena ∧
      (Machine.trialsState (List.range 8) s).penb = (Machine.trialsState (List.range 8) t).penb ∧
      (Machine.trialsState (List.range 8) s).penc = (Machine.trialsState (List.range 8) t).penc := by
    rw [trialsState_range_eight, trialsState_range_eight]
    exact (h.trialsState (List.range 7)).penalties_trialState 7
  obtain ⟨ha, hb, hc⟩ := hlast
  exact ⟨h.trialsState (List.range 8), ha, hb, hc,
    Vector.ext fun k hk => h.pen_trialsState hk (.inl (List.mem_range.2 hk))⟩

/-- EVAL's choice reads the eight totals (R176). -/
theorem bestMask_congr (h : s.pen = t.pen) : bestMask s = bestMask t := by
  have hpen : s.penalty = t.penalty := by
    funext m
    rw [State.penalty, State.penalty, h]
  have hbetter : betterMask s = betterMask t := by
    funext best m
    rw [betterMask, betterMask, hpen]
  rw [bestMask, bestMask, hbetter]

theorem State.SameTrials.bestAndRes (h : s.SameTrials t) {b b' : Nat} (hb : b = b') :
    State.SameEvaluation { s with best := BitVec.ofNat 3 b, res := word b }
      { t with best := BitVec.ofNat 3 b', res := word b' } := by
  subst hb
  exact { h with best := rfl, res := rfl }

theorem State.SameSequence.evalState (h : s.SameSequence t) : (evalState s).SameEvaluation (evalState t) :=
  h.trials.bestAndRes (bestMask_congr h.trials.pen)

/-- FINAL reads BEST, LEVEL, VERSION and the final codewords (R195). -/
theorem State.SameEvaluation.finalState (h : s.SameEvaluation t) : (finalState s).SameOutcome (finalState t) := by
  have hmat : (Machine.finalState s).mat = (Machine.finalState t).mat := by
    show Matrix.overwrite _ _ = Matrix.overwrite _ _
    have hb := h.mat_buildState s.best.toNat
    simp only [State.nmod, State.formatData, buildState_level, buildState_version, ← h.best, hb, h.version, h.level]
    rfl
  exact
    { h with
      mask := congrArg (fun b : BitVec 3 => BitVec.ofNat 3 b.toNat) h.best
      mat := hmat
      final := rfl }

/-- A running ENCODE completes, with its six stages in order (R135, R196). -/
theorem exec_encode_of_running (he : s.Running) (h : exec .encode s = .next t) :
    ∃ u, rsencState (packState (selverState s)) = .ok u ∧ t = finalState (evalState (ilvState u)) := by
  obtain ⟨u, hu⟩ := rsencState_ok (packState (selverState s))
  have hf : encodeState s = .ok (finalState (evalState (ilvState u))) := by rw [encodeState, hu]
  exact ⟨u, hu, (Host.Outcome.next.inj ((command_of_ok he hf).symm.trans h)).symm⟩

/-- Settles O59: what the two runs agree on, stage by stage. -/
theorem encodeDependsOnlyOnThePayload : Obligations.EncodeDependsOnlyOnThePayload := by
  intro s s' t t' he he' hl hn hp h h'
  obtain ⟨u, hu, rfl⟩ := exec_encode_of_running he h
  obtain ⟨u', hu', rfl⟩ := exec_encode_of_running he' h'
  have hdata : (packState (selverState s)).SameData (packState (selverState s')) :=
    packState_sameData (selverState_version_congr hl hn) hl hn hp
  have hblocks : u.SameBlocks u' := hdata.rsencState (selverState_legalVersion s) hu hu'
  exact hblocks.ilvState.evalState.finalState

end Sys2Proof.Machine

/-! SUPPORT. The storage spaces as the commands see them (20_memory.md): the word port (R52), the read commands (R48), and the
bit order of the data cells (R45). -/
namespace Sys2Proof.Machine

/-! The word port: the FAULT state discards every command but SRST, and only SRST's own word decodes to it. -/

theorem legalIf_eq_ok {b : Bool} {i j : Instr} : legalIf b i = .ok j ↔ b = true ∧ i = j := by
  cases b <;> simp [legalIf]

/-- No other opcode gives SRST, and its format leaves no bit free (R61, R64). -/
theorem eq_srstWord_of_decode {w : Word} (h : decode w = .ok .srst) : w = srstWord := by
  unfold decode at h
  split at h
  case h_2 hop =>
    obtain ⟨hz, -⟩ := legalIf_eq_ok.1 h
    have hz : field w 23 0 = 0 := by simpa using hz
    apply BitVec.eq_of_toNat_eq
    show w.toNat = 0x01000000
    simp only [field] at hop hz
    omega
  all_goals
    simp [decodeZ, decodeI8, decodeI16, decodeP1, decodeP1I, decodeP3, decodeX, decodeXI, decodeRC, legalIf_eq_ok] at h

theorem exec_of_faulted {i : Instr} {s : State} (hi : i ≠ .srst) (he : s.err ≠ 0) : exec i s = .next s := by
  obtain ⟨f, hf⟩ := exec_is_command hi
  rw [hf, command_of_faulted he]

/-- An accepted word that decodes runs its command, in the FAULT state too, where both discard all but SRST (R65, R241). -/
theorem acceptWord_eq_exec {w : Word} {i : Instr} (s : State) (hd : decode w = .ok i) : acceptWord w s = exec i s := by
  by_cases he : s.err = 0
  · exact acceptWord_of_ok he hd
  · by_cases hw : w = srstWord
    · subst hw
      cases hd
      exact acceptWord_srst s
    · have hi : i ≠ .srst := by
        rintro rfl
        exact hw (eq_srstWord_of_decode hd)
      rw [acceptWord_of_faulted he hw, exec_of_faulted hi he]

/-- Settles O6: the presented word is accepted, and acceptance agrees with `exec` in every state. -/
theorem stepRunsTheDecodedCommand : Obligations.StepRunsTheDecodedCommand := by
  intro s w rest i hs hd
  rw [step_cons hs, samplePorts_word rfl rfl]
  exact acceptWord_eq_exec _ hd

/-! The read commands. -/

/-- The effect of a read command does not depend on RES, and overwrites it. -/
theorem exec_read_is_command {i : Instr} (hi : isRead i = true) :
    ∃ f, (∀ s, exec i s = command (encode i) s f) ∧ ∀ s v, f (s.setRes v) = f s := by
  cases i with
  | rdcsr n => exact ⟨_, execRdcsr.eq_1 n, fun _ _ => rfl⟩
  | rdexp k => exact ⟨_, execRdexp.eq_1 k, fun _ _ => rfl⟩
  | plen p => exact ⟨_, execPlen.eq_1 p, fun s v => by rw [State.setRes_poly]; rfl⟩
  | pget p k => exact ⟨_, execPget.eq_1 p k, fun s v => by rw [State.setRes_poly]; rfl⟩
  | rdi k => exact ⟨_, execRdi.eq_1 k, fun _ _ => rfl⟩
  | rdd k => exact ⟨_, execRdd.eq_1 k, fun _ _ => rfl⟩
  | rdec k => exact ⟨_, execRdec.eq_1 k, fun _ _ => rfl⟩
  | rdcw k => exact ⟨_, execRdcw.eq_1 k, fun _ _ => rfl⟩
  | rdmod row col => exact ⟨_, execRdmod.eq_1 row col, fun _ _ => rfl⟩
  | _ => cases hi

theorem destPoly_of_isRead {i : Instr} (hi : isRead i = true) : destPoly i = none := by
  cases i with
  | rdcsr | rdexp | plen | pget | rdi | rdd | rdec | rdcw | rdmod => rfl
  | _ => cases hi

/-- A read command that completes writes RES and nothing else. -/
theorem Completes.eq_setRes_of_isRead {i : Instr} {s t : State} (h : Completes s i t) (hi : isRead i = true) :
    t = s.setRes t.res := by
  cases h with
  | result => rfl
  | poly hp => simp [destPoly_of_isRead hi] at hp
  | _ => cases hi

theorem eq_setRes_of_isRead {i : Instr} {s t : State} (hi : isRead i = true) (h : exec i s = .next t) (ht : t.err = 0) :
    t = s.setRes t.res := by
  have hsrst : i ≠ .srst := by rintro rfl; cases hi
  cases exec_answers hsrst h with
  | discarded he => exact absurd ht he
  | complete _ hdone => exact hdone.eq_setRes_of_isRead hi
  | fault _ c => exact absurd ht c.code_ne_zero

/-- Where a read command completes, it does the same whatever RES held. -/
theorem exec_setRes_of_isRead {i : Instr} {s t : State} (hi : isRead i = true) (h : exec i s = .next t) (ht : t.err = 0)
    (v : Word) : exec i (s.setRes v) = .next t := by
  obtain ⟨f, hf, hres⟩ := exec_read_is_command hi
  obtain ⟨he, rfl⟩ | ⟨he, hft⟩ | ⟨-, c, -, rfl⟩ := command_cases ((hf s).symm.trans h)
  · exact absurd ht he
  · exact (hf _).trans (command_of_ok he ((hres s v).trans hft))
  · exact absurd ht c.code_ne_zero

/-- Settles O24: the state left differs only in RES, on which a read command does not depend. -/
theorem readCommandsHaveNoSideEffect : Obligations.ReadCommandsHaveNoSideEffect := by
  intro i s t hi h ht
  have hres : t = s.setRes t.res := eq_setRes_of_isRead hi h ht
  have hagain : exec i t = .next t :=
    calc exec i t = exec i (s.setRes t.res) := congrArg (exec i) hres
      _ = .next t := exec_setRes_of_isRead hi h ht t.res
  exact ⟨hres, hagain⟩

/-! The traversal (R156) visits no cell twice. -/

/-- The column pairs lie side by side, from right to left. -/
theorem pairColumns_pairwise (n : Nat) : (pairColumns n).Pairwise fun a b => b + 2 ≤ a := by
  rw [pairColumns, List.pairwise_map]
  refine List.pairwise_lt_range.imp_of_mem fun hj hk hjk => ?_
  rw [List.mem_range] at hj hk
  split <;> split <;> omega

theorem pairColumns_bounds {n c : Nat} (h : c ∈ pairColumns n) : 1 ≤ c ∧ c < n := by
  obtain ⟨k, hk, rfl⟩ := List.mem_map.1 h
  rw [List.mem_range] at hk
  split <;> omega

theorem mem_pairRows {n k r : Nat} : r ∈ pairRows n k ↔ r < n := by
  unfold pairRows
  split <;> simp

theorem nodup_pairRows (n k : Nat) : (pairRows n k).Nodup := by
  unfold pairRows
  split
  · exact List.nodup_reverse.2 List.nodup_range
  · exact List.nodup_range

/-- The cells of the column pair whose right column is `c`, in the order of `rows` (R156). -/
def pairCells (rows : List Nat) (c : Nat) : List (Nat × Nat) := rows.flatMap fun r => [(r, c), (r, c - 1)]

theorem zigzag_eq (n : Nat) : zigzag n = (pairColumns n).zipIdx.flatMap fun p => pairCells (pairRows n p.2) p.1 := rfl

theorem mem_pairCells {rows : List Nat} {c : Nat} {p : Nat × Nat} :
    p ∈ pairCells rows c ↔ p.1 ∈ rows ∧ (p.2 = c ∨ p.2 = c - 1) := by
  simp [pairCells, Prod.ext_iff, ← and_or_left]

theorem nodup_pairCells {rows : List Nat} (h : rows.Nodup) {c : Nat} (hc : 1 ≤ c) : (pairCells rows c).Nodup := by
  rw [pairCells, List.nodup_flatMap]
  refine ⟨fun r _ => ?_, h.imp fun hne => ?_⟩
  · have hcol : c ≠ c - 1 := by omega
    simpa using hcol
  · simp [Function.onFun, hne.symm]

theorem nodup_zigzag (n : Nat) : (zigzag n).Nodup := by
  rw [zigzag_eq, List.nodup_flatMap]
  refine ⟨fun p hp => ?_, ?_⟩
  · exact nodup_pairCells (nodup_pairRows n p.2) (pairColumns_bounds (List.fst_mem_of_mem_zipIdx hp)).1
  · have hcols : (pairColumns n).zipIdx.Pairwise fun p q => q.1 + 2 ≤ p.1 := by
      rw [← List.pairwise_map (f := Prod.fst) (R := fun a b => b + 2 ≤ a), List.zipIdx_map_fst]
      exact pairColumns_pairwise n
    refine hcols.imp_of_mem fun _ hq hpq => List.disjoint_left.2 fun x hx hx' => ?_
    have := (pairColumns_bounds (List.fst_mem_of_mem_zipIdx hq)).1
    obtain ⟨-, hx⟩ := mem_pairCells.1 hx
    obtain ⟨-, hx'⟩ := mem_pairCells.1 hx'
    omega

theorem zigzag_bounds {n : Nat} {p : Nat × Nat} (h : p ∈ zigzag n) : p.1 < n ∧ p.2 < n := by
  obtain ⟨q, hq, hp⟩ := List.mem_flatMap.1 h
  obtain ⟨hr, hc⟩ := mem_pairCells.1 hp
  have := pairColumns_bounds (List.fst_mem_of_mem_zipIdx hq)
  exact ⟨mem_pairRows.1 hr, by omega⟩

/-! The data cells (R156): inside the symbol, unset by the patterns, each with its number. -/

theorem nodup_dataCells (v : Nat) : (dataCells v).Nodup := (nodup_zigzag _).filter _

theorem dataCells_bounds {v : Nat} {p : Nat × Nat} (h : p ∈ dataCells v) : p.1 < moduleCount v ∧ p.2 < moduleCount v :=
  zigzag_bounds (List.mem_filter.1 h).1

theorem patternCell_of_mem_dataCells {v : Nat} {p : Nat × Nat} (h : p ∈ dataCells v) : patternCell v p.1 p.2 = .unset :=
  beq_iff_eq.1 (List.mem_filter.1 h).2

/-- The dark module is reserved, so it is light before placement and no data cell (R155). -/
theorem ne_darkModule_of_mem_dataCells {v : Nat} {p : Nat × Nat} (h : p ∈ dataCells v) : p ≠ darkModule (moduleCount v) := by
  rintro rfl
  have hunset := patternCell_of_mem_dataCells h
  simp [patternCell, isReserved] at hunset

/-- A member of a list without duplicates is found at its own index. -/
theorem idxOf?_of_getElem?_eq_some {α : Type*} [BEq α] [LawfulBEq α] {l : List α} (hl : l.Nodup) {n : Nat} {a : α}
    (h : l[n]? = some a) : l.idxOf? a = some n := by
  obtain ⟨hn, hp⟩ := List.getElem?_eq_some_iff.1 h
  exact List.idxOf?_eq_some_iff.2 ⟨hn, hp, fun j hj he => hj.ne (hl.getElem_inj_iff.1 (he.trans hp.symm))⟩

/-! What BUILD leaves in the data cells (R158, R159). -/

theorem builtCell_dataCell {v n : Nat} {p : Nat × Nat} (h : (dataCells v)[n]? = some p) (cw : Memory) (cwlen m : Nat) :
    builtCell v (dataCells v) cw cwlen m p.1 p.2 = placedCell cw cwlen m n p.1 p.2 := by
  have hp : p ∈ dataCells v := List.mem_of_getElem? h
  rw [builtCell, if_neg (ne_darkModule_of_mem_dataCells hp), patternCell_of_mem_dataCells hp]
  simp only [Prod.mk.eta, idxOf?_of_getElem?_eq_some (nodup_dataCells v) h]

/-- The cells of the built matrix: every symbol fits the storage (R27). -/
theorem read_builtMatrix {v r c : Nat} (hv : v ≤ Config.maxVersion) (hr : r < moduleCount v) (hc : c < moduleCount v)
    (cw : Memory) (cwlen m : Nat) :
    (builtMatrix v cw cwlen m).read r c = builtCell v (dataCells v) cw cwlen m r c := by
  have hv10 : v ≤ 10 := hv
  have hfit : moduleCount v ≤ 57 := by rw [moduleCount]; omega
  rw [builtMatrix, Matrix.read_tabulate, if_pos ⟨by omega, by omega⟩, if_pos ⟨hr, hc⟩]

theorem read_builtMatrix_dataCell {v n : Nat} {p : Nat × Nat} (hv : v ≤ Config.maxVersion)
    (h : (dataCells v)[n]? = some p) (cw : Memory) (cwlen m : Nat) :
    (builtMatrix v cw cwlen m).read p.1 p.2 = placedCell cw cwlen m n p.1 p.2 := by
  obtain ⟨hr, hc⟩ := dataCells_bounds (List.mem_of_getElem? h)
  rw [read_builtMatrix hv hr hc, builtCell_dataCell h]

theorem colour_eq_dark {b : Bool} : colour b = .dark ↔ b = true := by cases b <;> simp [colour]

theorem streamBit_eq_true {cw : Memory} {cwlen n : Nat} :
    streamBit cw cwlen n = true ↔ n / 8 < cwlen ∧ cw.bitAt n = true := by
  simp [streamBit, Memory.bitAt]

theorem placedCell_eq_dark {cw : Memory} {cwlen m n r c : Nat} :
    placedCell cw cwlen m n r c = .dark ↔ ((n / 8 < cwlen ∧ cw.bitAt n = true) ↔ ¬maskfn m r c = true) := by
  rw [placedCell, colour_eq_dark, ← streamBit_eq_true]
  cases streamBit cw cwlen n <;> cases maskfn m r c <;> simp

/-- A running BUILD with a mask index completes (R159). -/
theorem exec_build_of_running {s : State} {m : Nat} (he : s.Running) (hm : m ≤ 7) :
    exec (.build m) s = .next (buildState m s) :=
  (execBuild.eq_1 m s).trans (command_of_ok he (inRange_eq_ok.2 ⟨decide_eq_true hm, rfl⟩))

/-- Settles O51: the traversal lists each data cell once, so the cell holds the bit of its own number. -/
theorem dataCellsCarryTheMaskedStream : Obligations.DataCellsCarryTheMaskedStream := by
  intro s m he hv hm
  refine ⟨_, exec_build_of_running he hm, fun n p hp => ?_⟩
  have hcell : (buildState m s).mat.read p.1 p.2 = placedCell s.cw s.cwlen.toNat m n p.1 p.2 :=
    read_builtMatrix_dataCell hv.2 hp s.cw s.cwlen.toNat m
  rw [hcell, placedCell_eq_dark]

end Sys2Proof.Machine

/-! SUPPORT. The command word (30_encoding.md): what each of the nine formats makes of a word, the round trips between words
and commands, and the rows of the opcode table. -/
namespace Sys2Proof

open Machine

variable {w : Word} {i : Instr}

/-! The operand values (R62). -/

theorem PReg.select_eq_iff {n : Nat} (hn : n < 4) {p : PReg} : PReg.select n = p ↔ n = p.number := by
  interval_cases n <;> cases p <;> decide

theorem byte_eq_iff {n : Nat} (hn : n < 256) {b : Byte} : BitVec.ofNat 8 n = b ↔ n = b.toNat := by bv_omega

/-! A word as its fields. -/

theorem field_lt (w : Word) (hi lo : Nat) : field w hi lo < 2 ^ (hi + 1 - lo) := Nat.mod_lt _ (Nat.two_pow_pos _)

/-- W[31:24] and W[23:0] are all of a word (R61). -/
theorem eq_of_field_eq {v : Word} (hop : field w 31 24 = field v 31 24) (hbits : field w 23 0 = field v 23 0) : w = v := by
  simp only [field] at hop hbits
  bv_omega

/-! For each format of R61: the reserved bits are 0 and the fields hold the operands exactly when the operands fit and
W[23:0] is their layout. -/

theorem formatI8_iff {n : Nat} : field w 23 8 = 0 ∧ field w 7 0 = n ↔ n < 256 ∧ field w 23 0 = n := by
  simp only [field]
  omega

theorem formatI16_iff {n : Int} : field w 23 16 = 0 ∧ sext16 (field w 15 0) = n ↔
    (-32768 ≤ n ∧ n ≤ 32767) ∧ field w 23 0 = pattern16 n := by
  simp only [field, sext16, pattern16]
  omega

theorem formatX_iff {n : Nat} : field w 23 9 = 0 ∧ field w 8 0 = n ↔ n < 512 ∧ field w 23 0 = n := by
  simp only [field]
  omega

theorem formatXI_iff {k n : Nat} : field w 23 17 = 0 ∧ field w 16 8 = k ∧ field w 7 0 = n ↔
    (k < 512 ∧ n < 256) ∧ field w 23 0 = k * 2 ^ 8 + n := by
  simp only [field]
  omega

theorem formatRC_iff {row col : Nat} : (field w 23 14 = 0 ∧ field w 7 6 = 0) ∧ field w 13 8 = row ∧ field w 5 0 = col ↔
    (row < 64 ∧ col < 64) ∧ field w 23 0 = row * 2 ^ 8 + col := by
  simp only [field]
  omega

theorem formatP1_iff {p : PReg} : field w 21 0 = 0 ∧ PReg.select (field w 23 22) = p ↔ field w 23 0 = p.number * 2 ^ 22 := by
  rw [PReg.select_eq_iff (field_lt w 23 22)]
  have := Laws.OpcodeField.number_lt p
  simp only [field]
  omega

theorem formatP1I_iff {p : PReg} {n : Nat} : field w 21 8 = 0 ∧ PReg.select (field w 23 22) = p ∧ field w 7 0 = n ↔
    n < 256 ∧ field w 23 0 = p.number * 2 ^ 22 + n := by
  rw [PReg.select_eq_iff (field_lt w 23 22)]
  have := Laws.OpcodeField.number_lt p
  simp only [field]
  omega

theorem formatP3_iff {pd pa pb : PReg} : field w 17 0 = 0 ∧ PReg.select (field w 23 22) = pd ∧
    PReg.select (field w 21 20) = pa ∧ PReg.select (field w 19 18) = pb ↔
    field w 23 0 = pd.number * 2 ^ 22 + pa.number * 2 ^ 20 + pb.number * 2 ^ 18 := by
  rw [PReg.select_eq_iff (field_lt w 23 22), PReg.select_eq_iff (field_lt w 21 20), PReg.select_eq_iff (field_lt w 19 18)]
  have := Laws.OpcodeField.number_lt pd
  have := Laws.OpcodeField.number_lt pa
  have := Laws.OpcodeField.number_lt pb
  simp only [field]
  omega

/-- A word with the opcode of `i` decodes to `i` exactly when `i` is well-formed and W[23:0] holds its operands. -/
theorem decode_eq_ok_iff_of_opcode (hop : field w 31 24 = opcodeOf i) :
    decode w = .ok i ↔ i.wf = true ∧ field w 23 0 = operandBits i := by
  unfold decode
  rw [hop]
  cases i with
  | nop | srst | iclr | selver | pack | rsenc | ilv | score | eval | wrfmt | final | encode =>
    simp [opcodeOf, decodeZ, legalIf_eq_ok, Instr.wf, operandBits]
  | rdcsr n | rdexp n | setlvl n | setver n | build n | fmt n | vinf n =>
    simpa [opcodeOf, decodeI8, legalIf_eq_ok, Instr.wf, fitsImm8, operandBits] using formatI8_iff
  | glog b | ipush b =>
    simpa [opcodeOf, decodeI8, legalIf_eq_ok, byte_eq_iff (field_lt w 7 0), Instr.wf, operandBits, b.isLt]
      using formatI8_iff (n := b.toNat)
  | gexp n =>
    simpa [opcodeOf, decodeI16, legalIf_eq_ok, Instr.wf, fitsSigned16, operandBits] using formatI16_iff
  | pclr p | plen p => simpa [opcodeOf, decodeP1, legalIf_eq_ok, Instr.wf, operandBits] using formatP1_iff
  | ppush p b =>
    simpa [opcodeOf, decodeP1I, legalIf_eq_ok, byte_eq_iff (field_lt w 7 0), Instr.wf, operandBits, b.isLt]
      using formatP1I_iff (n := b.toNat)
  | pgen p n | pget p n => simpa [opcodeOf, decodeP1I, legalIf_eq_ok, Instr.wf, fitsImm8, operandBits] using formatP1I_iff
  | pmul pd pa pb | pmod pd pa pb => simpa [opcodeOf, decodeP3, legalIf_eq_ok, Instr.wf, operandBits] using formatP3_iff
  | rdi k | rdd k | rdec k | rdcw k =>
    simpa [opcodeOf, decodeX, legalIf_eq_ok, Instr.wf, fitsIdx9, operandBits] using formatX_iff
  | wrd k b =>
    simpa [opcodeOf, decodeXI, legalIf_eq_ok, byte_eq_iff (field_lt w 7 0), Instr.wf, fitsIdx9, operandBits, b.isLt]
      using formatXI_iff (n := b.toNat)
  | rdmod row col =>
    simpa [opcodeOf, decodeRC, legalIf_eq_ok, Instr.wf, fitsIdx6, operandBits] using formatRC_iff

/-- A command has one opcode, and the decoder takes it from W[31:24] (R63). -/
theorem opcode_of_decode (h : decode w = .ok i) : field w 31 24 = opcodeOf i := by
  unfold decode at h
  split at h
  -- no row has the opcode
  case h_36 => cases h
  all_goals
    rename_i hop
    obtain ⟨-, rfl⟩ := legalIf_eq_ok.1 h
    exact hop

theorem decode_encode (hi : i.wf = true) : decode (encode i) = .ok i := by
  obtain ⟨-, hop, hbits⟩ := Laws.OpcodeField.all i hi
  exact (decode_eq_ok_iff_of_opcode hop).2 ⟨hi, hbits⟩

theorem decode_of_encode_eq (hw : encode i = w) (hi : i.wf = true) : decode w = .ok i := hw ▸ decode_encode hi

theorem wf_of_decode (h : decode w = .ok i) : i.wf = true := ((decode_eq_ok_iff_of_opcode (opcode_of_decode h)).1 h).1

theorem encode_of_decode (h : decode w = .ok i) : encode i = w := by
  have hop := opcode_of_decode h
  obtain ⟨hi, hbits⟩ := (decode_eq_ok_iff_of_opcode hop).1 h
  obtain ⟨-, hop', hbits'⟩ := Laws.OpcodeField.all i hi
  exact eq_of_field_eq (hop'.trans hop.symm) (hbits'.trans hbits.symm)

/-! The opcode table as match and mask (R61). -/

/-- The word with 1s at the bits [hi:lo]. -/
def fieldMask (hi lo : Nat) : Word := BitVec.ofNat 32 ((2 ^ (hi + 1 - lo) - 1) * 2 ^ lo)

theorem toNat_and_fieldMask (w : Word) (hi lo : Nat) : (w &&& fieldMask hi lo).toNat = field w hi lo * 2 ^ lo := by
  apply Nat.eq_of_testBit_eq
  intro k
  simp only [field, fieldMask, Nat.testBit_mul_two_pow, Nat.testBit_mod_two_pow, Nat.testBit_div_two_pow,
    Nat.testBit_two_pow_sub_one, BitVec.testBit_toNat, BitVec.getLsbD_and, BitVec.getLsbD_ofNat]
  by_cases hk : lo ≤ k
  · rw [Nat.sub_add_cancel hk]
    by_cases hk' : k < 32
    · simp [hk, hk', Bool.and_comm]
    · simp [BitVec.getLsbD_of_ge w k (by omega)]
  · simp [hk]

theorem and_fieldMask_eq_iff {v : Word} {hi lo : Nat} :
    w &&& fieldMask hi lo = v &&& fieldMask hi lo ↔ field w hi lo = field v hi lo := by
  rw [← BitVec.toNat_inj, toNat_and_fieldMask, toNat_and_fieldMask, Nat.mul_left_inj (Nat.two_pow_pos lo).ne']

theorem field_eq_zero_iff {hi lo : Nat} : field w hi lo = 0 ↔ w &&& fieldMask hi lo = 0 := by
  rw [← BitVec.toNat_inj, toNat_and_fieldMask]
  simp

theorem and_or_eq_zero_iff {a b : Word} : w &&& (a ||| b) = 0 ↔ w &&& a = 0 ∧ w &&& b = 0 := by
  rw [BitVec.and_or_distrib_left]
  exact BitVec.or_eq_zero_iff

/-- The opcode of a row: the fixed bits W[31:24]. -/
def OpcodeRow.opcode (r : OpcodeRow) : Nat := field r.fixed 31 24

/-- The reserved bits of a row: the fixed bits outside the opcode. -/
def OpcodeRow.reserved (r : OpcodeRow) : Word := r.mask &&& fieldMask 23 0

theorem opcodeRows_fixed : ∀ r ∈ opcodeRows, r.mask &&& fieldMask 31 24 = fieldMask 31 24 ∧ field r.fixed 23 0 = 0 := by
  decide

theorem opcodeRows_opcode_inj : ∀ r ∈ opcodeRows, ∀ r' ∈ opcodeRows, r.opcode = r'.opcode → r = r' := by
  decide

theorem exists_row_opcodeOf (i : Instr) : ∃ r ∈ opcodeRows, opcodeOf i = r.opcode := by
  cases i <;> simp only [opcodeOf] <;> decide

/-- A word matches a row when it has the row's opcode and 0 at the row's reserved bits. -/
theorem and_mask_eq_fixed_iff {r : OpcodeRow} (hr : r ∈ opcodeRows) :
    w &&& r.mask = r.fixed ↔ field w 31 24 = r.opcode ∧ w &&& r.reserved = 0 := by
  obtain ⟨hmask, hfixed⟩ := opcodeRows_fixed r hr
  have hop : field (w &&& r.mask) 31 24 = field w 31 24 := by
    rw [← and_fieldMask_eq_iff, BitVec.and_assoc, hmask]
  have hres : field (w &&& r.mask) 23 0 = 0 ↔ w &&& r.reserved = 0 := by
    rw [field_eq_zero_iff, BitVec.and_assoc, OpcodeRow.reserved]
  rw [OpcodeRow.opcode, ← hop, ← hres]
  exact ⟨fun h => by rw [h]; exact ⟨rfl, hfixed⟩, fun ⟨h, h'⟩ => eq_of_field_eq h (h'.trans hfixed.symm)⟩

theorem exists_legalIf_eq_ok {b : Bool} : (∃ j, legalIf b i = .ok j) ↔ b = true := by simp [legalIf_eq_ok]

/-- A word with the opcode of a row decodes exactly when the row's reserved bits are 0: its format tests the same fields. -/
theorem exists_decode_iff_reserved {r : OpcodeRow} (hr : r ∈ opcodeRows) (hop : field w 31 24 = r.opcode) :
    (∃ i, decode w = .ok i) ↔ w &&& r.reserved = 0 := by
  rw [decode, hop]
  simp only [opcodeRows, opcodeRowsLow, opcodeRowsHigh, List.cons_append, List.nil_append] at hr
  fin_cases hr
  -- each format decoder is a `legalIf`; the masks of its test and of the row are compared by evaluation
  all_goals refine exists_legalIf_eq_ok.trans ?_
  all_goals simp only [Bool.and_eq_true, beq_iff_eq, field_eq_zero_iff, ← and_or_eq_zero_iff]
  all_goals exact Iff.rfl

/-- The decoder accepts exactly the words that match a row. -/
theorem exists_decode_iff : (∃ i, decode w = .ok i) ↔ ∃ r ∈ opcodeRows, w &&& r.mask = r.fixed := by
  constructor
  · rintro ⟨i, hi⟩
    obtain ⟨r, hr, hopr⟩ := exists_row_opcodeOf i
    have hop : field w 31 24 = r.opcode := (opcode_of_decode hi).trans hopr
    exact ⟨r, hr, (and_mask_eq_fixed_iff hr).2 ⟨hop, (exists_decode_iff_reserved hr hop).1 ⟨i, hi⟩⟩⟩
  · rintro ⟨r, hr, hw⟩
    obtain ⟨hop, hres⟩ := (and_mask_eq_fixed_iff hr).1 hw
    exact (exists_decode_iff_reserved hr hop).2 hres

/-! The statements. -/

/-- Settles O1: the word holds the opcode and the operands that its format reads back. -/
theorem decodeEncodeRoundTrip : Obligations.DecodeEncodeRoundTrip := fun _ hi => decode_encode hi

/-- Settles O2: the opcode and the operands read are all of the word. -/
theorem decodedWordIsItsEncoding : Obligations.DecodedWordIsItsEncoding := fun _ _ h => ⟨wf_of_decode h, encode_of_decode h⟩

/-- Settles O3: a row of the word's opcode reserves the bits that its format tests. -/
theorem decodeAcceptsExactlyTheTableRows : Obligations.DecodeAcceptsExactlyTheTableRows := fun _ => exists_decode_iff

/-- Settles O4: two rows that one word matches have the same opcode. -/
theorem noWordMatchesTwoTableRows : Obligations.NoWordMatchesTwoTableRows := by
  refine ⟨rfl, fun w r hr r' hr' h h' => ?_⟩
  obtain ⟨hop, -⟩ := (and_mask_eq_fixed_iff hr).1 h
  obtain ⟨hop', -⟩ := (and_mask_eq_fixed_iff hr').1 h'
  exact opcodeRows_opcode_inj r hr r' hr' (hop.symm.trans hop')

/-- Settles O7: the words that match a row are those that decode. -/
theorem illegalWordRaisesIllegal : Obligations.IllegalWordRaisesIllegal := by
  intro s w rest hs he
  refine ⟨fun hno => ?_, fun hrow => ?_⟩
  · cases hd : decode w with
    | ok i =>
      obtain ⟨r, hr, hw⟩ := exists_decode_iff.1 ⟨i, hd⟩
      exact absurd hw (hno r hr)
    | error e =>
      rw [step_cons hs, samplePorts_word rfl rfl]
      exact acceptWord_of_error he hd
  · obtain ⟨i, hd⟩ := exists_decode_iff.2 hrow
    exact ⟨i, hd, stepRunsTheDecodedCommand s w rest i hs hd⟩

/-- Settles O5: each example is the word of a well-formed command. -/
theorem encodingExamplesDecode : Obligations.EncodingExamplesDecode :=
  ⟨decode_of_encode_eq rfl rfl, decode_of_encode_eq rfl rfl, decode_of_encode_eq rfl rfl, decode_of_encode_eq rfl rfl,
    decode_of_encode_eq rfl rfl, decode_of_encode_eq rfl rfl, decode_of_encode_eq rfl rfl, decode_of_encode_eq rfl rfl,
    decode_of_encode_eq rfl rfl⟩

end Sys2Proof

/-! SUPPORT. The Galois field (40_gf.md): R80 determines the table and makes each entry the one before it multiplied by x;
LOG is the inverse of every such table on 0..254 (R82); the words of GEXP, GLOG and RDEXP, and what they do in a
running block. -/
namespace Sys2Proof.Machine

/-- Multiplication by x modulo 0x11D (R82(a)): shift, and reduce where x^8 appears. -/
def timesX (v : Byte) : Byte := (v <<< 1) ^^^ (if v.msb then 0x1D else 0)

/-- The reduction is linear in the bit it depends on. -/
theorem ite_xor (a b : Bool) (c : Byte) :
    (if a ^^ b then c else 0) = (if a then c else 0) ^^^ (if b then c else 0) := by
  cases a <;> cases b <;> simp

theorem timesX_xor (u v : Byte) : timesX (u ^^^ v) = timesX u ^^^ timesX v := by
  rw [timesX, timesX, timesX, BitVec.shiftLeft_xor_distrib, BitVec.msb_xor, ite_xor]
  ac_rfl

namespace IsExpTable

variable {E : Nat → Byte} (h : IsExpTable E)
include h

/-- The recurrence, counted from the oldest entry it reads (R80). -/
theorem add_eight {k : Nat} (hk : k < 248) : E (k + 8) = E (k + 4) ^^^ E (k + 3) ^^^ E (k + 2) ^^^ E k :=
  h.2 (k + 8) (by omega) (by omega)

theorem eight : E 8 = 0x1D := by
  rw [h.add_eight (k := 0) (by omega), h.1 4 (by omega), h.1 3 (by omega), h.1 2 (by omega), h.1 0 (by omega)]
  decide

/-- The recurrence is linear and so is multiplication by x, so it passes from the first entries to all others. -/
theorem succ_eq_timesX {i : Nat} (hi : i < 255) : E (i + 1) = timesX (E i) := by
  induction i using Nat.strong_induction_on with
  | _ i ih =>
    obtain hlt | rfl | hge := Nat.lt_trichotomy i 7
    · rw [h.1 (i + 1) (by omega), h.1 i (by omega)]
      interval_cases i <;> decide
    · rw [h.eight, h.1 7 (by omega)]
      decide
    · obtain ⟨k, rfl⟩ := Nat.exists_eq_add_of_le' (show 8 ≤ i from hge)
      have hnext : E (k + 8 + 1) = E (k + 4 + 1) ^^^ E (k + 3 + 1) ^^^ E (k + 2 + 1) ^^^ E (k + 1) :=
        h.add_eight (k := k + 1) (by omega)
      rw [hnext, h.add_eight (by omega), timesX_xor, timesX_xor, timesX_xor]
      rw [ih (k + 4) (by omega) (by omega), ih (k + 3) (by omega) (by omega), ih (k + 2) (by omega) (by omega),
        ih k (by omega) (by omega)]

/-- R80 determines every entry. -/
theorem eq_expEntry {i : Nat} (hi : i ≤ 255) : E i = expEntry i := by
  induction i using Nat.strong_induction_on with
  | _ i ih =>
    obtain hlt | hge := Nat.lt_or_ge i 8
    · rw [h.1 i (by omega), expEntry_seed i hlt]
      interval_cases i <;> decide
    · obtain ⟨k, rfl⟩ := Nat.exists_eq_add_of_le' hge
      rw [h.add_eight (by omega), expEntry_recurrence k (by omega)]
      rw [ih (k + 4) (by omega) (by omega), ih (k + 3) (by omega) (by omega), ih (k + 2) (by omega) (by omega),
        ih k (by omega) (by omega)]

theorem apply_ne_zero {i : Nat} (hi : i ≤ 255) : E i ≠ 0 := by
  rw [h.eq_expEntry hi]
  exact expEntry_ne_zero i (by omega)

theorem apply_logEntry {v : Byte} (hv : v ≠ 0) : E (logEntry v.toNat) = v := by
  have hlt := logEntry_lt hv
  have hmod : ((logEntry v.toNat : Int) % 255).toNat = logEntry v.toNat := by omega
  rw [h.eq_expEntry (by omega), ← hmod]
  exact gexp_logEntry hv

theorem logEntry_apply {i : Nat} (hi : i ≤ 254) : logEntry (E i).toNat = i := by
  rw [h.eq_expEntry (by omega)]
  exact logEntry_expEntry i (by omega)

/-- The exponent of a non-zero byte, and no other in 0..254, has that byte as its entry (R82(b), R82(e)). -/
theorem logEntry_unique {v : Byte} (hv : v ≠ 0) :
    logEntry v.toNat ≤ 254 ∧ E (logEntry v.toNat) = v ∧ ∀ j ≤ 254, E j = v → j = logEntry v.toNat := by
  refine ⟨Nat.le_of_lt_succ (logEntry_lt hv), h.apply_logEntry hv, fun j hj hjv => ?_⟩
  rw [← hjv, h.logEntry_apply hj]

theorem gexp_eq (n : Int) : gexp n = E (n % 255).toNat := (h.eq_expEntry (by omega)).symm

end IsExpTable

/-! The words of the three commands (R63). -/

theorem encode_eq_word {i : Instr} {k : Nat} (h : opcodeOf i * 2 ^ 24 + operandBits i = k) : encode i = word k :=
  congrArg word h

theorem encode_gexp (n : Int) : encode (.gexp n) = word (0x10000000 + (n % 65536).toNat) :=
  encode_eq_word (by simp only [opcodeOf, operandBits, pattern16]; omega)

theorem encode_glog (n : Byte) : encode (.glog n) = word (0x11000000 + n.toNat) :=
  encode_eq_word (by simp only [opcodeOf, operandBits]; omega)

theorem encode_rdexp (k : Nat) : encode (.rdexp k) = word (0x12000000 + k) :=
  encode_eq_word (by simp only [opcodeOf, operandBits]; omega)

/-! The commands in a running block (R85 to R87). -/

theorem exec_gexp_of_running {s : State} (he : s.Running) (n : Int) : exec (.gexp n) s = .next (s.setRes (zext (gexp n))) :=
  (execGexp.eq_1 n s).trans (command_of_ok he rfl)

theorem exec_rdexp_of_running {s : State} (he : s.Running) (k : Nat) :
    exec (.rdexp k) s = .next (s.setRes (zext (expEntry k))) :=
  (execRdexp.eq_1 k s).trans (command_of_ok he rfl)

theorem exec_glog_zero_of_running {s : State} (he : s.Running) :
    exec (.glog 0) s = .next (s.raise .domain (encode (.glog 0))) :=
  (execGlog.eq_1 0 s).trans (command_of_error he (by rw [glog_zero]))

theorem exec_glog_of_running {s : State} (he : s.Running) {n : Byte} (hn : n ≠ 0) :
    exec (.glog n) s = .next (s.setRes (word (logEntry n.toNat))) :=
  (execGlog.eq_1 n s).trans (command_of_ok he (by rw [glog_of_ne_zero hn]))

/-! The statements. -/

/-- Settles O29: every table of R80 is the one that LOG inverts. -/
theorem expTableFacts : Obligations.ExpTableFacts := by
  intro E h
  have hzero : E 0 = 1 := h.1 0 (by omega)
  have hlast : E 255 = 1 := h.eq_expEntry (le_refl 255)
  exact ⟨h.eight, fun i hi => h.succ_eq_timesX hi, fun v hv => ⟨_, h.logEntry_unique hv⟩, hzero, hlast,
    fun i hi => h.apply_ne_zero hi, fun v hv => h.apply_logEntry hv, fun i hi => h.logEntry_apply hi⟩

/-- Settles O30: GEXP takes its operand modulo 255, RDEXP as it stands. -/
theorem gexpAndRdexpReadTheExpTable : Obligations.GexpAndRdexpReadTheExpTable := by
  intro E h s he
  refine ⟨fun n hmin hmax => ⟨?_, ?_⟩, fun k hk => ⟨?_, ?_⟩⟩
  · exact decode_of_encode_eq (encode_gexp n) (by simp [Instr.wf, fitsSigned16, hmin, hmax])
  · rw [← h.gexp_eq]
    exact exec_gexp_of_running he n
  · exact decode_of_encode_eq (encode_rdexp k) (decide_eq_true (Nat.lt_succ_of_le hk))
  · rw [h.eq_expEntry hk]
    exact exec_rdexp_of_running he k

/-- Settles O31: the exponent that GLOG answers is the one exponent of its operand. -/
theorem glogInvertsExpAndFaultsAtZero : Obligations.GlogInvertsExpAndFaultsAtZero := by
  intro E h s he
  refine ⟨fun n => decode_of_encode_eq (encode_glog n) rfl, exec_glog_zero_of_running he, fun n hn => ?_⟩
  obtain ⟨hle, happly, hunique⟩ := h.logEntry_unique hn
  exact ⟨logEntry n.toNat, hle, happly, hunique, exec_glog_of_running he hn⟩

end Sys2Proof.Machine

/-! SUPPORT. The field product as the polynomial rules use it (R88, R93): the term units answer it, and a product with a power
of x is a repeated multiplication by x, which is linear. -/
namespace Sys2Proof.Machine

/-! The product of two field elements. -/

@[simp] theorem fieldMul_zero_left (v : Byte) : fieldMul 0#8 v = 0#8 := if_pos (.inl rfl)

@[simp] theorem fieldMul_zero_right (u : Byte) : fieldMul u 0#8 = 0#8 := if_pos (.inr rfl)

theorem fieldMul_of_ne_zero {u v : Byte} (hu : u ≠ 0) (hv : v ≠ 0) :
    fieldMul u v = gexp ((logEntry u.toNat : Int) + (logEntry v.toNat : Int)) :=
  if_neg (not_or.2 ⟨hu, hv⟩)

theorem fieldMul_ne_zero {u v : Byte} (hu : u ≠ 0) (hv : v ≠ 0) : fieldMul u v ≠ 0 := by
  rw [fieldMul_of_ne_zero hu hv]
  exact gexp_ne_zero _

theorem fieldMul_one (u : Byte) : fieldMul u 1 = u := by
  by_cases hu : u = 0
  · simp [hu]
  · rw [fieldMul_of_ne_zero hu (by decide)]
    exact gexp_logEntry hu

@[simp] theorem fieldMul_one_lit (u : Byte) : fieldMul u 1#8 = u := fieldMul_one u

/-- gexp depends on its argument modulo 255 only (R83). -/
theorem gexp_congr {m n : Int} (h : m % 255 = n % 255) : gexp m = gexp n := by rw [gexp, h, gexp]

theorem logEntry_gexp (n : Int) : (logEntry (gexp n).toNat : Int) = n % 255 := by
  rw [gexp, logEntry_expEntry _ (by omega)]
  omega

theorem fieldMul_gexp {u : Byte} (hu : u ≠ 0) (n : Int) : fieldMul u (gexp n) = gexp ((logEntry u.toNat : Int) + n) := by
  rw [fieldMul_of_ne_zero hu (gexp_ne_zero n), logEntry_gexp]
  exact gexp_congr (by omega)

theorem fieldMul_comm (u v : Byte) : fieldMul u v = fieldMul v u := by
  simp only [fieldMul, or_comm, Int.add_comm]

theorem gterm_of_ne_zero {u v : Byte} (hu : u ≠ 0) (hv : v ≠ 0) : gterm u v = .ok (fieldMul u v) := by
  rw [gterm_eq, if_neg (not_or.2 ⟨hu, hv⟩), fieldMul_of_ne_zero hu hv]

theorem gterm_of_eq_zero {u v : Byte} (h : u = 0 ∨ v = 0) : gterm u v = .error .domain := by rw [gterm_eq, if_pos h]

theorem gterm_eq_ok {u v t : Byte} (h : gterm u v = .ok t) : t = fieldMul u v := by
  rw [gterm_eq] at h
  split at h
  · cases h
  · next h0 =>
    obtain ⟨hu, hv⟩ := not_or.1 h0
    rw [fieldMul_of_ne_zero hu hv]
    exact (Except.ok.inj h).symm

theorem gscale_eq_ok {u t : Byte} {n : Int} (h : gscale u n = .ok t) : t = fieldMul (gexp n) u := by
  rw [gscale_eq] at h
  split at h
  · cases h
  · next hu =>
    rw [fieldMul_comm, fieldMul_gexp hu]
    exact (Except.ok.inj h).symm

/-! The powers of x. -/

theorem expEntry_succ : ∀ i < 255, expEntry (i + 1) = timesX (expEntry i) := by decide +kernel

theorem gexp_add_one (n : Int) : gexp (n + 1) = timesX (gexp n) := by
  have hsucc := expEntry_succ (n % 255).toNat (by omega)
  obtain hlt | hlast : (n % 255).toNat < 254 ∨ (n % 255).toNat = 254 := by omega
  · have hnext : ((n + 1) % 255).toNat = (n % 255).toNat + 1 := by omega
    rw [gexp, hnext, hsucc, gexp]
  · have hnext : ((n + 1) % 255).toNat = 0 := by omega
    rw [gexp, hnext, gexp, ← hsucc, hlast]
    rfl

/-- Multiplication by x^n in the field. -/
def mulX (n : Nat) (v : Byte) : Byte := timesX^[n] v

theorem mulX_succ (n : Nat) (v : Byte) : mulX (n + 1) v = timesX (mulX n v) := Function.iterate_succ_apply' ..

theorem mulX_mulX (m n : Nat) (v : Byte) : mulX m (mulX n v) = mulX (m + n) v := (Function.iterate_add_apply ..).symm

theorem mulX_xor (n : Nat) (u v : Byte) : mulX n (u ^^^ v) = mulX n u ^^^ mulX n v := by
  induction n with
  | zero => rfl
  | succ n ih => rw [mulX_succ, ih, timesX_xor, mulX_succ, mulX_succ]

@[simp] theorem mulX_zero (n : Nat) : mulX n 0#8 = 0#8 := by
  induction n with
  | zero => rfl
  | succ n ih => rw [mulX_succ, ih]; rfl

theorem mulX_gexp (n : Nat) (l : Int) : mulX n (gexp l) = gexp (l + n) := by
  induction n with
  | zero => simp [mulX]
  | succ n ih => rw [mulX_succ, ih, ← gexp_add_one, Int.add_assoc, Nat.cast_succ]

theorem fieldMul_gexp_natCast (v : Byte) (n : Nat) : fieldMul v (gexp n) = mulX n v := by
  by_cases hv : v = 0
  · simp [hv]
  · rw [fieldMul_gexp hv, ← mulX_gexp, gexp_logEntry hv]

/-- The order of x is 255: different powers below it take a non-zero element to different elements. -/
theorem mod_eq_of_mulX_eq {v : Byte} (hv : v ≠ 0) {m n : Nat} (h : mulX m v = mulX n v) : m % 255 = n % 255 := by
  rw [← gexp_logEntry hv, mulX_gexp, mulX_gexp] at h
  have hlog := logEntry_gexp ((logEntry v.toNat : Int) + m)
  rw [h, logEntry_gexp] at hlog
  omega

theorem mulX_ne_zero {v : Byte} (hv : v ≠ 0) (n : Nat) : mulX n v ≠ 0 := by
  rw [← gexp_logEntry hv, mulX_gexp]
  exact gexp_ne_zero _

end Sys2Proof.Machine

/-! SUPPORT. Polynomials by their coefficients (R90): what each list operation of the model does to the coefficient of x^k. -/
namespace Sys2Proof.Machine

/-! The coefficients of a list. -/

@[simp] theorem coeff_nil (k : Nat) : coeff [] k = 0#8 := rfl

theorem coeff_of_length_le {a : List Byte} {k : Nat} (h : a.length ≤ k) : coeff a k = 0#8 := by
  rw [coeff, List.getD_eq_default _ _ (by simpa using h)]
  rfl

theorem coeff_cons (x : Byte) (a : List Byte) (k : Nat) : coeff (x :: a) k = if k = a.length then x else coeff a k := by
  rw [coeff, List.reverse_cons]
  obtain hlt | rfl | hgt := Nat.lt_trichotomy k a.length
  · rw [if_neg hlt.ne, List.getD_append _ _ _ _ (by simpa using hlt), coeff]
  · simp
  · rw [if_neg hgt.ne', coeff_of_length_le hgt.le, List.getD_eq_default _ _ (by simpa using hgt)]
    rfl

@[simp] theorem coeff_zero_cons (a : List Byte) (k : Nat) : coeff (0#8 :: a) k = coeff a k := by
  rw [coeff_cons]
  split
  · next h => rw [coeff_of_length_le h.ge]
  · rfl

theorem coeff_strip (a : List Byte) (k : Nat) : coeff (strip a) k = coeff a k := by
  induction a with
  | nil => rfl
  | cons x a ih =>
    by_cases hx : x = 0
    · rw [hx, strip_zero_cons, ih]
      exact (coeff_zero_cons a k).symm
    · rw [strip_cons_of_ne_zero hx]

theorem coeff_zeros_append (n : Nat) (a : List Byte) (k : Nat) : coeff (zeros n ++ a) k = coeff a k := by
  induction n with
  | zero => rfl
  | succ n ih =>
    rw [zeros, List.replicate_succ, List.cons_append, ← ih]
    exact coeff_zero_cons _ k

theorem coeff_zeros (n k : Nat) : coeff (zeros n) k = 0 := by simpa using coeff_zeros_append n [] k

theorem coeff_modify (a : List Byte) (i : Nat) (f : Byte → Byte) (k : Nat) :
    coeff (a.modify i f) k = if k + i + 1 = a.length then f (coeff a k) else coeff a k := by
  induction a generalizing i with
  | nil => simp
  | cons x a ih =>
    cases i with
    | zero =>
      simp only [List.modify_zero_cons, coeff_cons, List.length_cons, Nat.add_zero, Nat.add_right_cancel_iff]
      split <;> rfl
    | succ i =>
      simp only [List.modify_succ_cons, coeff_cons, List.length_modify, ih, List.length_cons]
      by_cases hk : k = a.length
      · rw [if_pos hk, if_pos hk, if_neg (by omega)]
      · simp only [if_neg hk, ← Nat.add_assoc, Nat.add_right_cancel_iff]

theorem zero_notMem_of_coeff_ne_zero {a : List Byte} (h : ∀ k < a.length, coeff a k ≠ 0) : 0 ∉ a := by
  intro hmem
  obtain ⟨k, hk, hget⟩ := List.getElem_of_mem (List.mem_reverse.2 hmem)
  exact h k (by simpa using hk) (by rw [coeff, List.getD_eq_getElem _ _ hk, hget])

theorem head?_eq_some_coeff {a : List Byte} {n : Nat} (h : a.length = n + 1) : a.head? = some (coeff a n) := by
  obtain ⟨x, a, rfl⟩ := List.exists_cons_of_length_eq_add_one h
  rw [coeff_cons, if_pos (by simpa using h.symm)]
  rfl

theorem eq_of_coeff_eq {a b : List Byte} (hl : a.length = b.length) (h : ∀ k, coeff a k = coeff b k) : a = b := by
  refine List.reverse_injective (List.ext_getElem (by simpa using hl) fun k ha hb => ?_)
  rw [← List.getD_eq_getElem _ 0 ha, ← List.getD_eq_getElem _ 0 hb]
  exact h k

/-! The coefficients of a product. -/

/-- The sum of a list of field elements (R88). -/
def xorSum (l : List Byte) : Byte := l.foldr (· ^^^ ·) 0

theorem xorSum_append (l m : List Byte) : xorSum (l ++ m) = xorSum l ^^^ xorSum m := by
  induction l with
  | nil => simp [xorSum]
  | cons x l ih => simpa [xorSum, BitVec.xor_assoc] using ih

theorem xorSum_map_xor {ι : Type*} (f g : ι → Byte) (l : List ι) :
    xorSum (l.map fun i => f i ^^^ g i) = xorSum (l.map f) ^^^ xorSum (l.map g) := by
  induction l with
  | nil => simp [xorSum]
  | cons i l ih =>
    simp only [xorSum, List.map_cons, List.foldr_cons] at ih ⊢
    rw [ih]
    ac_rfl

theorem xorSum_map_single (n d : Nat) (c : Byte) :
    xorSum ((List.range n).map fun i => if i = d then c else 0) = if d < n then c else 0 := by
  induction n with
  | zero => rfl
  | succ n ih =>
    rw [List.range_succ, List.map_append, xorSum_append, ih]
    obtain hlt | rfl | hgt := Nat.lt_trichotomy d n
    · simp [xorSum, hlt, hlt.ne', Nat.lt_succ_of_lt hlt]
    · simp [xorSum]
    · simp [xorSum, hgt.ne, Nat.not_lt.2 hgt.le, Nat.not_lt.2 (Nat.succ_le_of_lt hgt)]

theorem xorSum_map_eq_zero {ι : Type*} {f : ι → Byte} {l : List ι} (h : ∀ i ∈ l, f i = 0#8) :
    xorSum (l.map f) = 0#8 := by
  induction l with
  | nil => rfl
  | cons i l ih =>
    rw [List.map_cons, h i (by simp)]
    simpa [xorSum] using ih fun j hj => h j (List.mem_cons_of_mem _ hj)

theorem productCoeff_eq_xorSum (a b : List Byte) (k : Nat) :
    productCoeff a b k = xorSum ((List.range (k + 1)).map fun i => fieldMul (coeff a i) (coeff b (k - i))) := rfl

theorem productCoeff_congr {a a' : List Byte} (h : ∀ k, coeff a k = coeff a' k) (b : List Byte) (k : Nat) :
    productCoeff a b k = productCoeff a' b k := by
  simp only [productCoeff, h]

/-- Above the sum of the degrees every term has a factor beyond the end of its list. -/
theorem productCoeff_of_le {a b : List Byte} {k : Nat} (h : a.length + b.length ≤ k + 1) : productCoeff a b k = 0#8 := by
  rw [productCoeff_eq_xorSum]
  refine xorSum_map_eq_zero fun i hi => ?_
  have hik := List.mem_range.1 hi
  obtain hlt | hge := Nat.lt_or_ge i a.length
  · rw [coeff_of_length_le (by omega : b.length ≤ k - i), fieldMul_zero_right]
  · rw [coeff_of_length_le hge, fieldMul_zero_left]

@[simp] theorem productCoeff_nil (b : List Byte) (k : Nat) : productCoeff [] b k = 0#8 :=
  xorSum_map_eq_zero fun i _ => by rw [coeff_nil, fieldMul_zero_left]

/-- The coefficient of x^k in `u·x^d·b(x)`. -/
def shiftedCoeff (u : Byte) (d : Nat) (b : List Byte) (k : Nat) : Byte :=
  if d ≤ k then fieldMul u (coeff b (k - d)) else 0#8

@[simp] theorem shiftedCoeff_nil (u : Byte) (d k : Nat) : shiftedCoeff u d [] k = 0#8 := by simp [shiftedCoeff]

theorem shiftedCoeff_add_length (u : Byte) (d : Nat) (b : List Byte) : shiftedCoeff u d b (d + b.length) = 0#8 := by
  rw [shiftedCoeff, if_pos (by omega), Nat.add_sub_cancel_left, coeff_of_length_le (le_refl _), fieldMul_zero_right]

theorem shiftedCoeff_cons (u v : Byte) (d : Nat) (b : List Byte) (k : Nat) :
    shiftedCoeff u d (v :: b) k = if k = d + b.length then fieldMul u v else shiftedCoeff u d b k := by
  rw [shiftedCoeff, coeff_cons]
  by_cases hk : k = d + b.length
  · rw [if_pos (by omega), if_pos (by omega), if_pos hk]
  · rw [if_neg hk, shiftedCoeff]
    split
    · rw [if_neg (by omega)]
    · rfl

/-- A leading coefficient adds its multiple of the other factor. -/
theorem productCoeff_cons (u : Byte) (a b : List Byte) (k : Nat) :
    productCoeff (u :: a) b k = productCoeff a b k ^^^ shiftedCoeff u a.length b k := by
  have hterm (i : Nat) : fieldMul (coeff (u :: a) i) (coeff b (k - i)) =
      fieldMul (coeff a i) (coeff b (k - i)) ^^^ if i = a.length then fieldMul u (coeff b (k - a.length)) else 0 := by
    rw [coeff_cons]
    split
    · next h => rw [h, coeff_of_length_le (le_refl a.length)]; simp
    · simp
  simp only [productCoeff_eq_xorSum, hterm, xorSum_map_xor, xorSum_map_single, Nat.lt_succ_iff]
  rfl

theorem productCoeff_lead (u v : Byte) (a b : List Byte) :
    productCoeff (u :: a) (v :: b) (a.length + b.length) = fieldMul u v := by
  rw [productCoeff_cons, productCoeff_of_le (by rw [List.length_cons]; omega), shiftedCoeff_cons, if_pos rfl]
  simp

theorem productCoeff_linear_zero (a : List Byte) (c : Byte) : productCoeff a [1, c] 0 = fieldMul (coeff a 0) c := by
  simp [productCoeff, coeff]

theorem productCoeff_linear_succ (a : List Byte) (c : Byte) (k : Nat) :
    productCoeff a [1, c] (k + 1) = coeff a k ^^^ fieldMul (coeff a (k + 1)) c := by
  have hlow : xorSum ((List.range k).map fun i => fieldMul (coeff a i) (coeff [1, c] (k + 1 - i))) = 0#8 := by
    refine xorSum_map_eq_zero fun i hi => ?_
    have hik := List.mem_range.1 hi
    have hlen : [1, c].length ≤ k + 1 - i := by rw [List.length_cons, List.length_singleton]; omega
    rw [coeff_of_length_le hlen, fieldMul_zero_right]
  rw [productCoeff_eq_xorSum, List.range_succ, List.range_succ, List.map_append, List.map_append, xorSum_append,
    xorSum_append, hlow]
  simp [xorSum, coeff_cons]

/-- The polynomial `c·x^d + q(x)`, for q of degree below d. -/
def prependTerm (c : Byte) (d : Nat) (q : List Byte) : List Byte := c :: (zeros (d - q.length) ++ q)

theorem length_prependTerm (c : Byte) {d : Nat} {q : List Byte} (hq : q.length ≤ d) : (prependTerm c d q).length = d + 1 := by
  rw [prependTerm, List.length_cons, List.length_append, zeros, List.length_replicate, Nat.sub_add_cancel hq]

theorem productCoeff_prependTerm (c : Byte) {d : Nat} {q : List Byte} (hq : q.length ≤ d) (b : List Byte) (k : Nat) :
    productCoeff (prependTerm c d q) b k = productCoeff q b k ^^^ shiftedCoeff c d b k := by
  rw [prependTerm, productCoeff_cons, productCoeff_congr (coeff_zeros_append _ q), List.length_append, zeros,
    List.length_replicate, Nat.sub_add_cancel hq]

end Sys2Proof.Machine

/-! SUPPORT. What the polynomial functions answer (R91, R94 to R97, R100): the product, the remainder, and their faults. -/
namespace Sys2Proof.Machine

/-! Stripped operands. -/

theorem isStripped_of_zero_notMem {a : List Byte} (h : 0 ∉ a) : IsStripped a := fun h0 => h (List.mem_of_mem_head? h0)

theorem strip_of_zero_notMem {a : List Byte} (h : 0 ∉ a) : strip a = a := strip_of_isStripped (isStripped_of_zero_notMem h)

theorem ne_zero_of_isStripped_cons {x : Byte} {a : List Byte} (h : IsStripped (x :: a)) : x ≠ 0 :=
  fun hx => h (congrArg some hx)

/-- What PPUSH stores: a 0 pushed onto an empty register is stripped again, and nothing else is (R91, R100). -/
theorem strip_append_singleton {a : List Byte} (ha : IsStripped a) (c : Byte) :
    strip (a ++ [c]) = if a = [] ∧ c = 0 then [] else a ++ [c] := by
  cases a with
  | nil =>
    by_cases hc : c = 0
    · rw [hc]
      rfl
    · rw [List.nil_append, strip_cons_of_ne_zero hc, if_neg fun h => hc h.2]
  | cons x a =>
    rw [List.cons_append, strip_cons_of_ne_zero (ne_zero_of_isStripped_cons ha), if_neg fun h => List.cons_ne_nil x a h.1]

/-! pmul (R94, R95). -/

theorem mulRow_ok {u : Byte} (hu : u ≠ 0) {b : List Byte} (hb : 0 ∉ b) (k : Nat) (out : List Byte) :
    ∃ r, mulRow u b k out = .ok r := by
  induction b generalizing k out with
  | nil => exact ⟨out, rfl⟩
  | cons v b ih =>
    obtain ⟨hv, hb⟩ := not_or.1 (List.mem_cons.not.1 hb)
    rw [mulRow, gterm_of_ne_zero hu (Ne.symm hv)]
    exact ih hb _ _

theorem mulRows_ok {a b : List Byte} (ha : 0 ∉ a) (hb : 0 ∉ b) (k : Nat) (out : List Byte) :
    ∃ r, mulRows b a k out = .ok r := by
  induction a generalizing k out with
  | nil => exact ⟨out, rfl⟩
  | cons u a ih =>
    obtain ⟨hu, ha⟩ := not_or.1 (List.mem_cons.not.1 ha)
    obtain ⟨r, hr⟩ := mulRow_ok (Ne.symm hu) hb k out
    rw [mulRows, hr]
    exact ih ha _ _

/-- A zero factor in a row faults (R93). -/
theorem mulRow_error {u : Byte} {b : List Byte} (h : 0 ∈ b ∨ u = 0 ∧ b ≠ []) (k : Nat) (out : List Byte) :
    mulRow u b k out = .error .domain := by
  induction b generalizing k out with
  | nil => simp at h
  | cons v b ih =>
    by_cases huv : u = 0 ∨ v = 0
    · rw [mulRow, gterm_of_eq_zero huv]
    · obtain ⟨hu, hv⟩ := not_or.1 huv
      rw [mulRow, gterm_of_ne_zero hu hv]
      have h0 : 0 ∈ v :: b := h.resolve_right fun h => hu h.1
      exact ih (.inl ((List.mem_cons.1 h0).resolve_left (Ne.symm hv))) _ _

theorem mulRows_error {a b : List Byte} (ha : a ≠ []) (hb : b ≠ []) (h : 0 ∈ a ∨ 0 ∈ b) (k : Nat) (out : List Byte) :
    mulRows b a k out = .error .domain := by
  induction a generalizing k out with
  | nil => exact absurd rfl ha
  | cons u a ih =>
    by_cases hrow : 0 ∈ b ∨ u = 0
    · rw [mulRows, mulRow_error (hrow.imp_right fun hu => ⟨hu, hb⟩)]
    · obtain ⟨h0b, hu⟩ := not_or.1 hrow
      obtain ⟨r, hr⟩ := mulRow_ok hu h0b k out
      have h0a : 0 ∈ a := (List.mem_cons.1 (h.resolve_right h0b)).resolve_left (Ne.symm hu)
      rw [mulRows, hr]
      exact ih (List.ne_nil_of_mem h0a) (.inl h0a) _ _

/-- The inner loop adds `u·x^d·b(x)`, for d the number of positions behind the row (R94). -/
theorem coeff_mulRow {u : Byte} {b : List Byte} {k d : Nat} {out r : List Byte} (h : mulRow u b k out = .ok r)
    (hl : k + b.length + d = out.length) (m : Nat) : coeff r m = coeff out m ^^^ shiftedCoeff u d b m := by
  induction b generalizing k out with
  | nil => cases h; simp
  | cons v b ih =>
    rw [List.length_cons] at hl
    rw [mulRow] at h
    split at h
    · cases h
    · next t ht =>
      rw [ih h (by rw [List.length_modify]; omega), coeff_modify, gterm_eq_ok ht, shiftedCoeff_cons]
      by_cases hm : m = d + b.length
      · rw [if_pos (by omega), if_pos hm, hm, shiftedCoeff_add_length]
        simp
      · rw [if_neg (by omega), if_neg hm]

/-- The outer loop adds the product (R94). -/
theorem coeff_mulRows {a b : List Byte} {k : Nat} {out r : List Byte} (h : mulRows b a k out = .ok r)
    (hl : k + a.length + b.length = out.length + 1) (m : Nat) : coeff r m = coeff out m ^^^ productCoeff a b m := by
  induction a generalizing k out with
  | nil => cases h; simp
  | cons u a ih =>
    rw [List.length_cons] at hl
    rw [mulRows] at h
    split at h
    · cases h
    · next out' hrow =>
      rw [ih h (by rw [length_mulRow hrow]; omega), coeff_mulRow hrow (d := a.length) (by omega), productCoeff_cons]
      ac_rfl

/-- pmul of polynomials without a zero coefficient: the product, whose leading coefficient is not 0 (R94, R95). -/
theorem pmul_ok {a b : List Byte} (ha : a ≠ []) (hb : b ≠ []) (h0a : 0 ∉ a) (h0b : 0 ∉ b)
    (hlen : a.length + b.length - 1 ≤ Config.polyMax) :
    ∃ out, pmul a b = .ok out ∧ out.length = a.length + b.length - 1 ∧ ∀ k, coeff out k = productCoeff a b k := by
  obtain ⟨out, hout⟩ := mulRows_ok h0a h0b 0 (zeros (a.length + b.length - 1))
  have hlength : out.length = a.length + b.length - 1 := by rw [length_mulRows hout, zeros, List.length_replicate]
  have hcoeff (k : Nat) : coeff out k = productCoeff a b k := by
    have := List.length_pos_iff.2 ha
    rw [coeff_mulRows hout (by rw [zeros, List.length_replicate]; omega), coeff_zeros]
    simp
  have hstripped : IsStripped out := by
    obtain ⟨u, a, rfl⟩ := List.exists_cons_of_ne_nil ha
    obtain ⟨v, b, rfl⟩ := List.exists_cons_of_ne_nil hb
    have hlead : out.head? = some (fieldMul u v) := by
      rw [← productCoeff_lead u v a b, ← hcoeff]
      exact head?_eq_some_coeff (by rw [hlength, List.length_cons, List.length_cons]; omega)
    rw [IsStripped, hlead]
    intro h
    exact fieldMul_ne_zero (Ne.symm (List.ne_of_not_mem_cons h0a)) (Ne.symm (List.ne_of_not_mem_cons h0b)) (Option.some.inj h)
  refine ⟨out, ?_, hlength, hcoeff⟩
  rw [pmul, strip_of_zero_notMem h0a, strip_of_zero_notMem h0b, pmulStripped, if_neg (by simp [ha, hb]),
    if_neg (by omega), hout]
  exact congrArg Except.ok (strip_of_isStripped hstripped)

theorem pmul_nil {a b : List Byte} (h : a = [] ∨ b = []) : pmul a b = .ok [] := by
  rw [pmul, pmulStripped, if_pos]
  exact h.imp (fun h => by rw [h]; rfl) (fun h => by rw [h]; rfl)

theorem pmul_plen {a b : List Byte} (ha : IsStripped a) (hb : IsStripped b) (hane : a ≠ []) (hbne : b ≠ [])
    (h : Config.polyMax < a.length + b.length - 1) : pmul a b = .error .plen := by
  rw [pmul, strip_of_isStripped ha, strip_of_isStripped hb, pmulStripped, if_neg (by simp [hane, hbne]), if_pos h]

theorem pmul_domain {a b : List Byte} (ha : IsStripped a) (hb : IsStripped b) (hane : a ≠ []) (hbne : b ≠ [])
    (h : a.length + b.length - 1 ≤ Config.polyMax) (h0 : 0 ∈ a ∨ 0 ∈ b) : pmul a b = .error .domain := by
  rw [pmul, strip_of_isStripped ha, strip_of_isStripped hb, pmulStripped, if_neg (by simp [hane, hbne]),
    if_neg (Nat.not_lt.2 h), mulRows_error hane hbne h0]

/-! pmod (R96, R97). -/

/-- A pass adds `gexp(ratio)·x^d·b(x)`, for d the difference of the lengths (R96). -/
theorem coeff_elimRow {ratio : Int} {a b r : List Byte} {d : Nat} (h : elimRow ratio a b = .ok r)
    (hl : d + b.length = a.length) (m : Nat) : coeff r m = coeff a m ^^^ shiftedCoeff (gexp ratio) d b m := by
  induction b generalizing a r with
  | nil => rw [elimRow] at h; cases h; simp
  | cons y b ih =>
    cases a with
    | nil => simp at hl
    | cons x a =>
      have hl' : d + b.length = a.length := Nat.succ.inj hl
      rw [elimRow] at h
      split at h
      · cases h
      · next t ht =>
        split at h
        · cases h
        · next r' hr' =>
          cases h
          rw [coeff_cons, coeff_cons, shiftedCoeff_cons, length_elimRow hr', hl', ih hr' hl', gscale_eq_ok ht]
          by_cases hm : m = a.length
          · rw [if_pos hm, if_pos hm, if_pos hm]
          · rw [if_neg hm, if_neg hm, if_neg hm]

theorem elimRow_error (ratio : Int) {a b : List Byte} (hb : 0 ∈ b) (hl : b.length ≤ a.length) :
    elimRow ratio a b = .error .domain := by
  induction b generalizing a with
  | nil => simp at hb
  | cons y b ih =>
    cases a with
    | nil => simp at hl
    | cons x a =>
      rw [elimRow, gscale_eq]
      by_cases hy : y = 0
      · rw [if_pos hy]
      · rw [if_neg hy, ih ((List.mem_cons.1 hb).resolve_left (Ne.symm hy)) (by simpa using hl)]

theorem leadRatio_ok {x y : Byte} (hx : x ≠ 0) (hy : y ≠ 0) (a b : List Byte) :
    leadRatio (x :: a) (y :: b) = .ok ((logEntry x.toNat : Int) - logEntry y.toNat) := by
  simp [leadRatio, glog_of_ne_zero hx, glog_of_ne_zero hy]

theorem pmodLoop_of_length_lt {a b : List Byte} (h : a.length < b.length) (fuel : Nat) : pmodLoop fuel a b = .ok a := by
  cases fuel with
  | zero => rfl
  | succ fuel => rw [pmodLoop, if_pos h]

theorem eq_xor_of_xor_eq {a p r s : Byte} (h : a ^^^ s = p ^^^ r) : a = p ^^^ s ^^^ r := by
  calc a = (a ^^^ s) ^^^ s := by simp
    _ = p ^^^ s ^^^ r := by rw [h]; ac_rfl

/-- What the passes have subtracted is the divisor times some q: each pass adds one term to q (R96, R97). -/
theorem pmodLoop_quotient {fuel : Nat} {a b r : List Byte} (ha : IsStripped a) (hne : b ≠ []) (hb : 0 ∉ b)
    (h : pmodLoop fuel a b = .ok r) :
    ∃ q, q.length ≤ a.length + 1 - b.length ∧ ∀ k, coeff a k = productCoeff q b k ^^^ coeff r k := by
  induction fuel generalizing a with
  | zero => cases h; exact ⟨[], by simp, by simp⟩
  | succ fuel ih =>
    rw [pmodLoop] at h
    split at h
    · cases h; exact ⟨[], by simp, by simp⟩
    · next hlen =>
      obtain ⟨y, b, rfl⟩ := List.exists_cons_of_ne_nil hne
      obtain ⟨x, a, rfl⟩ := List.exists_cons_of_length_pos (by simp at hlen; omega : 0 < a.length)
      obtain ⟨a', hlead, helim, hlen'⟩ := elimRow_lead (a := a) (ne_zero_of_isStripped_cons ha)
        (fun z hz hz0 => hb (hz0 ▸ hz)) (Nat.not_lt.1 hlen)
      simp only [hlead, helim, strip_zero_cons] at h
      obtain ⟨q, hq, hcoeff⟩ := ih (isStripped_strip a') h
      have hstrip := length_strip_le a'
      simp only [List.length_cons] at hlen hq
      have hd : q.length ≤ a.length - b.length := by omega
      refine ⟨prependTerm (gexp ((logEntry x.toNat : Int) - logEntry y.toNat)) (a.length - b.length) q, ?_, fun k => ?_⟩
      · rw [length_prependTerm _ hd, List.length_cons, List.length_cons]
        omega
      · have hpass := coeff_elimRow helim (d := a.length - b.length) (by rw [List.length_cons, List.length_cons]; omega) k
        have hrest : coeff (0 :: a') k = productCoeff q (y :: b) k ^^^ coeff r k := by
          rw [← hcoeff, coeff_strip]
          exact coeff_zero_cons a' k
        rw [productCoeff_prependTerm _ hd]
        exact eq_xor_of_xor_eq (hpass.symm.trans hrest)

theorem pmod_quotient {a b r : List Byte} (hne : b ≠ []) (hb : 0 ∉ b) (h : pmod a b = .ok r) :
    ∃ q, ∀ k, coeff a k = productCoeff q b k ^^^ coeff r k := by
  rw [pmod, strip_of_zero_notMem hb, pmodStripped, if_neg (by simpa using hne)] at h
  obtain ⟨q, -, hq⟩ := pmodLoop_quotient (isStripped_strip a) hne hb h
  exact ⟨q, fun k => (coeff_strip a k).symm.trans (hq k)⟩

theorem pmod_nil (a : List Byte) {b : List Byte} (h : b = []) : pmod a b = .error .domain := by
  rw [h]
  rfl

theorem pmod_of_length_lt {a b : List Byte} (ha : IsStripped a) (hb : IsStripped b) (h : a.length < b.length) :
    pmod a b = .ok a := by
  rw [pmod, strip_of_isStripped ha, strip_of_isStripped hb, pmodStripped, if_neg (by omega)]
  exact pmodLoop_of_length_lt h _

/-- A zero coefficient faults in the first pass, behind the divisor's leading coefficient, which is not 0 (R97). -/
theorem pmod_error {a b : List Byte} (ha : IsStripped a) (hb : IsStripped b) (hl : b.length ≤ a.length) (h0 : 0 ∈ b) :
    pmod a b = .error .domain := by
  obtain ⟨y, b, rfl⟩ := List.exists_cons_of_ne_nil (List.ne_nil_of_mem h0)
  obtain ⟨x, a, rfl⟩ := List.exists_cons_of_length_pos (Nat.lt_of_lt_of_le (Nat.succ_pos _) hl)
  rw [pmod, strip_of_isStripped ha, strip_of_isStripped hb, pmodStripped, if_neg (List.length_cons ▸ Nat.succ_ne_zero _),
    List.length_cons, pmodLoop, if_neg (Nat.not_lt.2 hl),
    leadRatio_ok (ne_zero_of_isStripped_cons ha) (ne_zero_of_isStripped_cons hb)]
  simp only [elimRow_error _ h0 hl]

end Sys2Proof.Machine

/-! SUPPORT. The generator polynomials (R98): their coefficients by a recursion of their own, and why none is 0 below
n = 255. -/
namespace Sys2Proof.Machine

/-- The coefficient of x^k in the product of `[1, gexp(i)]` for i < n. -/
def generatorCoeff : Nat → Nat → Byte
  | 0, k => if k = 0 then 1 else 0
  | n + 1, 0 => mulX n (generatorCoeff n 0)
  | n + 1, k + 1 => generatorCoeff n k ^^^ mulX n (generatorCoeff n (k + 1))

theorem generatorCoeff_of_lt {n k : Nat} (h : n < k) : generatorCoeff n k = 0 := by
  induction n generalizing k with
  | zero => exact if_neg h.ne'
  | succ n ih =>
    obtain ⟨k, rfl⟩ := Nat.exists_eq_add_one_of_ne_zero (Nat.ne_zero_of_lt h)
    rw [generatorCoeff, ih (by omega), ih (by omega)]
    simp

theorem generatorCoeff_self (n : Nat) : generatorCoeff n n = 1 := by
  induction n with
  | zero => rfl
  | succ n ih =>
    rw [generatorCoeff, ih, generatorCoeff_of_lt (Nat.lt_succ_self n)]
    simp

theorem generatorCoeff_zero_ne_zero (n : Nat) : generatorCoeff n 0 ≠ 0 := by
  induction n with
  | zero => decide
  | succ n ih => exact mulX_ne_zero ih n

/-- The cancellation that `recurrence_step` turns on: c and f stand on one side twice. -/
theorem xor_exchange {a b c d e f g h : Byte} (hl : a ^^^ b = c ^^^ d) (hr : e ^^^ f = g ^^^ h) :
    (a ^^^ e) ^^^ (b ^^^ c) = (f ^^^ g) ^^^ (d ^^^ h) := by
  calc (a ^^^ e) ^^^ (b ^^^ c) = (a ^^^ b) ^^^ c ^^^ e := by ac_rfl
    _ = (c ^^^ c) ^^^ (d ^^^ e) := by rw [hl]; ac_rfl
    _ = (f ^^^ f) ^^^ (d ^^^ e) := by rw [BitVec.xor_self, BitVec.xor_self]
    _ = (e ^^^ f) ^^^ (f ^^^ d) := by ac_rfl
    _ = (f ^^^ g) ^^^ (d ^^^ h) := by rw [hr]; ac_rfl

/-- The step of `generatorCoeff_recurrence`: from three neighbours under n to two under n + 1. -/
theorem recurrence_step {n k : Nat} {x y z : Byte}
    (hxy : mulX (n + 1) x ^^^ mulX k x = mulX (n + k) y ^^^ mulX n y)
    (hyz : mulX (n + 1) y ^^^ mulX (k + 1) y = mulX (n + k + 1) z ^^^ mulX n z) :
    mulX (n + 2) (x ^^^ mulX n y) ^^^ mulX (k + 1) (x ^^^ mulX n y) =
      mulX (n + k + 2) (y ^^^ mulX n z) ^^^ mulX (n + 1) (y ^^^ mulX n z) := by
  have hl := congrArg (mulX 1) hxy
  have hr := congrArg (mulX (n + 1)) hyz
  simp only [mulX_xor, mulX_mulX] at hl hr ⊢
  ring_nf at hl hr ⊢
  exact xor_exchange hl hr

/-- The quotient of two neighbours, as for Gaussian binomial coefficients (addition is xor):
`(x^(n+1) + x^(k+1))·c(k) = (x^(n+k+1) + x^n)·c(k+1)`. -/
theorem generatorCoeff_recurrence (n k : Nat) :
    mulX (n + 1) (generatorCoeff n k) ^^^ mulX (k + 1) (generatorCoeff n k) =
      mulX (n + k + 1) (generatorCoeff n (k + 1)) ^^^ mulX n (generatorCoeff n (k + 1)) := by
  induction n generalizing k with
  | zero => cases k <;> simp [generatorCoeff]
  | succ n ih =>
    cases k with
    | zero => simpa [generatorCoeff] using recurrence_step (k := 0) (x := 0) (by simp) (ih 0)
    | succ k =>
      rw [generatorCoeff, generatorCoeff]
      have := recurrence_step (ih k) (ih (k + 1))
      rwa [show n + 1 + (k + 1) + 1 = n + (k + 1) + 2 by omega]

theorem generatorCoeff_ne_zero {n k : Nat} (hn : n < 255) (hk : k ≤ n) : generatorCoeff n k ≠ 0 := by
  induction k with
  | zero => exact generatorCoeff_zero_ne_zero n
  | succ k ih =>
    intro hzero
    have hrec := generatorCoeff_recurrence n k
    rw [hzero] at hrec
    have heq : mulX (n + 1) (generatorCoeff n k) = mulX (k + 1) (generatorCoeff n k) :=
      BitVec.xor_eq_zero_iff.1 (by simpa using hrec)
    have := mod_eq_of_mulX_eq (ih (by omega)) heq
    omega

/-! pgen answers the list of these coefficients. -/

/-- Multiplication by the next factor is the recursion of the coefficients (R98). -/
theorem productCoeff_next_factor {n : Nat} {g : List Byte} (hg : ∀ k, coeff g k = generatorCoeff n k) (k : Nat) :
    productCoeff g [1, gexp (n : Int)] k = generatorCoeff (n + 1) k := by
  cases k with
  | zero => rw [productCoeff_linear_zero, hg, fieldMul_gexp_natCast, generatorCoeff]
  | succ k => rw [productCoeff_linear_succ, hg, hg, fieldMul_gexp_natCast, generatorCoeff]

/-- The generator polynomial for n, of degree n. -/
def generatorPoly (n : Nat) : List Byte := ((List.range (n + 1)).map (generatorCoeff n)).reverse

@[simp] theorem length_generatorPoly (n : Nat) : (generatorPoly n).length = n + 1 := by simp [generatorPoly]

theorem coeff_generatorPoly (n k : Nat) : coeff (generatorPoly n) k = generatorCoeff n k := by
  obtain hlt | hle := Nat.lt_or_ge n k
  · rw [coeff_of_length_le (by rw [length_generatorPoly]; omega), generatorCoeff_of_lt hlt]
    rfl
  · rw [coeff, generatorPoly, List.reverse_reverse, List.getD_eq_getElem _ _ (by simpa using Nat.lt_succ_of_le hle)]
    simp

theorem zero_notMem_generatorPoly {n : Nat} (hn : n < 255) : 0 ∉ generatorPoly n :=
  zero_notMem_of_coeff_ne_zero fun k hk => by
    rw [coeff_generatorPoly]
    exact generatorCoeff_ne_zero hn (Nat.le_of_lt_succ (by simpa using hk))

theorem head?_generatorPoly (n : Nat) : (generatorPoly n).head? = some 1 := by
  rw [head?_eq_some_coeff (length_generatorPoly n), coeff_generatorPoly, generatorCoeff_self]

/-- pgen never faults for n up to 255: each factor is multiplied to a polynomial without a zero coefficient (R103). -/
theorem pgen_eq_ok {n : Nat} (hn : n ≤ 255) : pgen n = .ok (generatorPoly n) := by
  induction n with
  | zero => rfl
  | succ n ih =>
    have hne : generatorPoly n ≠ [] := List.ne_nil_of_length_eq_add_one (length_generatorPoly n)
    have hfactor : (0 : Byte) ∉ [1, gexp (n : Int)] := by simpa using (gexp_ne_zero n).symm
    have hfits : (generatorPoly n).length + [1, gexp (n : Int)].length - 1 ≤ Config.polyMax := by
      rw [length_generatorPoly]
      exact Nat.succ_le_succ hn
    obtain ⟨out, hout, hlen, hcoeff⟩ :=
      pmul_ok hne (List.cons_ne_nil _ _) (zero_notMem_generatorPoly (by omega)) hfactor hfits
    have heq : out = generatorPoly (n + 1) := by
      refine eq_of_coeff_eq (by simp [hlen]) fun k => ?_
      rw [hcoeff, productCoeff_next_factor (coeff_generatorPoly n), coeff_generatorPoly]
    rw [pgen, ih (by omega), ← heq]
    exact hout

end Sys2Proof.Machine

/-! SUPPORT. The polynomial commands (41_poly.md): their words and what they do in a running block. -/
namespace Sys2Proof.Machine

/-! The words of the commands (R63). -/

theorem encode_pclr (p : PReg) : encode (.pclr p) = word (0x20000000 + p.number * 2 ^ 22) :=
  encode_eq_word (by simp only [opcodeOf, operandBits]; omega)

theorem encode_ppush (p : PReg) (c : Byte) : encode (.ppush p c) = word (0x21000000 + p.number * 2 ^ 22 + c.toNat) :=
  encode_eq_word (by simp only [opcodeOf, operandBits]; omega)

theorem encode_pmul (pd pa pb : PReg) :
    encode (.pmul pd pa pb) = word (0x22000000 + pd.number * 2 ^ 22 + pa.number * 2 ^ 20 + pb.number * 2 ^ 18) :=
  encode_eq_word (by simp only [opcodeOf, operandBits]; omega)

theorem encode_pmod (pd pa pb : PReg) :
    encode (.pmod pd pa pb) = word (0x23000000 + pd.number * 2 ^ 22 + pa.number * 2 ^ 20 + pb.number * 2 ^ 18) :=
  encode_eq_word (by simp only [opcodeOf, operandBits]; omega)

theorem encode_pgen (p : PReg) (n : Nat) : encode (.pgen p n) = word (0x24000000 + p.number * 2 ^ 22 + n) :=
  encode_eq_word (by simp only [opcodeOf, operandBits]; omega)

theorem encode_plen (p : PReg) : encode (.plen p) = word (0x25000000 + p.number * 2 ^ 22) :=
  encode_eq_word (by simp only [opcodeOf, operandBits]; omega)

theorem encode_pget (p : PReg) (k : Nat) : encode (.pget p k) = word (0x26000000 + p.number * 2 ^ 22 + k) :=
  encode_eq_word (by simp only [opcodeOf, operandBits]; omega)

/-! The commands that store a computed polynomial. -/

theorem exec_ppush (p : PReg) (c : Byte) (s : State) : exec (.ppush p c) s = command (encode (.ppush p c)) s fun s =>
    storePoly s p (if (s.poly p).length ≥ Config.polyMax then .error .plen else .ok (strip (s.poly p ++ [c]))) := rfl

theorem exec_pmul (pd pa pb : PReg) (s : State) : exec (.pmul pd pa pb) s =
    command (encode (.pmul pd pa pb)) s fun s => storePoly s pd (pmul (s.poly pa) (s.poly pb)) := rfl

theorem exec_pmod (pd pa pb : PReg) (s : State) : exec (.pmod pd pa pb) s =
    command (encode (.pmod pd pa pb)) s fun s => storePoly s pd (pmod (s.poly pa) (s.poly pb)) := rfl

theorem exec_pgen (p : PReg) (n : Nat) (s : State) :
    exec (.pgen p n) s = command (encode (.pgen p n)) s fun s => storePoly s p (pgen n) := rfl

/-! The commands in a running block: a polynomial that is computed goes to its register, a fault is entered (R106, R240). -/

section
variable {i : Instr} {s : State} {p : PReg} {r : State → Except FaultCode (List Byte)}

theorem exec_of_storePoly_ok (hi : exec i s = command (encode i) s fun s => storePoly s p (r s)) (he : s.Running)
    {v : List Byte} (hr : r s = .ok v) : exec i s = .next (s.setPoly p v) :=
  hi.trans (command_of_ok he (storePoly_eq_ok.2 ⟨v, hr, rfl⟩))

theorem exec_of_storePoly_error (hi : exec i s = command (encode i) s fun s => storePoly s p (r s)) (he : s.Running)
    {c : FaultCode} (hr : r s = .error c) : exec i s = .next (s.raise c (encode i)) :=
  hi.trans (command_of_error he (storePoly_eq_error.2 hr))

end

theorem exec_pget_of_lt {s : State} (he : s.Running) {p : PReg} {k : Nat} {c : Byte} (h : (s.poly p)[k]? = some c) :
    exec (.pget p k) s = .next (s.setRes (zext c)) := by
  obtain ⟨hk, hget⟩ := List.getElem?_eq_some_iff.1 h
  refine (execPget.eq_1 p k s).trans (command_of_ok he ?_)
  rw [decide_eq_true hk, inRange_true, List.getD_eq_getElem _ _ hk, hget]

theorem exec_pget_of_length_le {s : State} (he : s.Running) {p : PReg} {k : Nat} (h : (s.poly p).length ≤ k) :
    exec (.pget p k) s = .next (s.raise .range (encode (.pget p k))) := by
  refine (execPget.eq_1 p k s).trans (command_of_error he ?_)
  rw [decide_eq_false (Nat.not_lt.2 h), inRange_false]

/-! The statements. -/

/-- Settles O34: the outer loop accumulates the product row by row, and its leading coefficient is not 0. -/
theorem pmulLeavesTheProduct : Obligations.PmulLeavesTheProduct := by
  intro s pd pa pb he hs
  obtain ⟨ha, -⟩ := hs pa
  obtain ⟨hb, -⟩ := hs pb
  have hi := exec_pmul pd pa pb s
  refine ⟨decode_of_encode_eq (encode_pmul pd pa pb) rfl, fun hnil => exec_of_storePoly_ok hi he (pmul_nil hnil),
    fun hane hbne hlong => exec_of_storePoly_error hi he (pmul_plen ha hb hane hbne hlong),
    fun hane hbne hfits => ⟨fun h0 => exec_of_storePoly_error hi he (pmul_domain ha hb hane hbne hfits h0),
      fun h0a h0b => ?_⟩⟩
  obtain ⟨out, hout, hlen, hcoeff⟩ := pmul_ok hane hbne h0a h0b hfits
  exact ⟨out, exec_of_storePoly_ok hi he hout, hlen, (polyLegal_pmul hout).1, hcoeff⟩

/-- Settles O35: each pass adds one term to the quotient q. -/
theorem pmodLeavesTheRemainder : Obligations.PmodLeavesTheRemainder := by
  intro s pd pa pb he hs
  obtain ⟨ha, -⟩ := hs pa
  obtain ⟨hb, -⟩ := hs pb
  have hi := exec_pmod pd pa pb s
  refine ⟨decode_of_encode_eq (encode_pmod pd pa pb) rfl,
    fun hnil => exec_of_storePoly_error hi he (pmod_nil (s.poly pa) hnil),
    fun hlt => exec_of_storePoly_ok hi he (pmod_of_length_lt ha hb hlt),
    fun hle h0 => exec_of_storePoly_error hi he (pmod_error ha hb hle h0), fun hne h0 => ?_⟩
  obtain ⟨r, hr, hstripped, hlt⟩ := pmod_ok hne (fun y hy hy0 => h0 (hy0 ▸ hy)) (s.poly pa)
  obtain ⟨q, hq⟩ := pmod_quotient hne h0 hr
  exact ⟨r, q, exec_of_storePoly_ok hi he hr, hstripped, hlt, hq⟩

/-- Settles O36, with the list of the coefficients that the recursion of the products gives; by the recurrence of two
neighbours none is 0. -/
theorem pgenLeavesTheGeneratorPolynomial : Obligations.PgenLeavesTheGeneratorPolynomial := by
  refine ⟨generatorPoly, rfl, fun n _ k => ?_, fun n _ => ?_, fun s p n he hn => ?_⟩
  · rw [coeff_generatorPoly, productCoeff_next_factor (coeff_generatorPoly n)]
  · exact ⟨length_generatorPoly n, head?_generatorPoly n, zero_notMem_generatorPoly⟩
  · exact ⟨decode_of_encode_eq (encode_pgen p n) (decide_eq_true (Nat.lt_succ_of_le hn)),
      exec_of_storePoly_ok (exec_pgen p n s) he (pgen_eq_ok hn)⟩

/-- R107, entry by entry. -/
theorem pgen_printed : ∀ e ∈ printedGenerators, pgen e.1 = .ok e.2 := by decide +kernel

/-- Settles O37: pgen is computed for each of the seventeen entries, whatever the register and the state. -/
theorem pgenGivesThePrintedGenerators : Obligations.PgenGivesThePrintedGenerators :=
  fun s p he e hmem => exec_of_storePoly_ok (exec_pgen p e.1 s) he (pgen_printed e hmem)

/-- Settles O33: the appended list is stripped already, unless it is a single 0. -/
theorem ppushAppendsTheConstantTerm : Obligations.PpushAppendsTheConstantTerm := by
  intro s p c he hs
  have hi := exec_ppush p c s
  refine ⟨decode_of_encode_eq (encode_ppush p c) rfl, fun hroom => ?_, fun hfull => ?_⟩
  · rw [← strip_append_singleton (hs p).1]
    exact exec_of_storePoly_ok hi he (if_neg (Nat.not_le.2 hroom))
  · rw [← encode_ppush]
    exact exec_of_storePoly_error hi he (if_pos hfull.ge)

/-- Settles O32: neither command can fault. -/
theorem pclrAndIclrClear : Obligations.PclrAndIclrClear := fun s he =>
  ⟨fun p => ⟨decode_of_encode_eq (encode_pclr p) rfl, (execPclr.eq_1 p s).trans (command_of_ok he rfl)⟩,
    decode_of_encode_eq rfl rfl, (execIclr.eq_1 s).trans (command_of_ok he rfl)⟩

/-- Settles O38: the range check of PGET is the one on the index into the coefficients. -/
theorem plenAndPgetReadThePolynomial : Obligations.PlenAndPgetReadThePolynomial := by
  intro s p he
  refine ⟨decode_of_encode_eq (encode_plen p) rfl, (execPlen.eq_1 p s).trans (command_of_ok he rfl), fun k hk =>
    ⟨decode_of_encode_eq (encode_pget p k) (decide_eq_true (Nat.lt_succ_of_le hk)), fun c hc => exec_pget_of_lt he hc,
      fun hle => ?_⟩⟩
  rw [← encode_pget]
  exact exec_pget_of_length_le he hle

end Sys2Proof.Machine

/-! SUPPORT. The commands of the front end that write one register or one byte (R111, R112, R114, R119): their words and what
they do in a running block. -/
namespace Sys2Proof.Machine

/-! The words of the commands (R63). -/

theorem encode_ipush (b : Byte) : encode (.ipush b) = word (0x31000000 + b.toNat) :=
  encode_eq_word (by simp only [opcodeOf, operandBits]; omega)

theorem encode_setlvl (c : Nat) : encode (.setlvl c) = word (0x32000000 + c) :=
  encode_eq_word (by simp only [opcodeOf, operandBits]; omega)

theorem encode_setver (v : Nat) : encode (.setver v) = word (0x33000000 + v) :=
  encode_eq_word (by simp only [opcodeOf, operandBits]; omega)

theorem encode_wrd (i : Nat) (b : Byte) : encode (.wrd i b) = word (0x34000000 + i * 256 + b.toNat) :=
  encode_eq_word (by simp only [opcodeOf, operandBits]; omega)

/-! A command that is a range check and one update (R239). -/

section
variable {i : Instr} {s : State} {ok : Bool} {f : State → State}

theorem exec_of_inRange (hi : exec i s = command (encode i) s fun s => inRange ok (f s)) (he : s.Running)
    (hok : ok = true) : exec i s = .next (f s) :=
  hi.trans (command_of_ok he (inRange_eq_ok.2 ⟨hok, rfl⟩))

theorem exec_of_not_inRange (hi : exec i s = command (encode i) s fun s => inRange ok (f s)) (he : s.Running)
    (hok : ok = false) : exec i s = .next (s.raise .range (encode i)) :=
  hi.trans (command_of_error he (inRange_eq_error.2 ⟨hok, rfl⟩))

end

/-! What IPUSH does to ILEN and IBUF (R111). -/

theorem ilen_ipushState (b : Byte) (s : State) : (ipushState b s).ilen.toNat = min (s.ilen.toNat + 1) 65535 := by
  simp only [ipushState, Config.ilenMax]
  split <;> bv_omega

theorem read_ibuf_ipushState (b : Byte) (s : State) (j : Nat) :
    (ipushState b s).ibuf.read j = if j = s.ilen.toNat ∧ j < 274 then b else s.ibuf.read j := by
  simp only [ipushState, Config.ibufSize]
  split
  · next hroom =>
    rw [Memory.read_write]
    exact if_congr (by omega) rfl rfl
  · next hfull => rw [if_neg (by omega)]

/-! The statements. -/

/-- Settles O39: neither the store nor the count can fault. -/
theorem ipushStoresAndCounts : Obligations.IpushStoresAndCounts := fun s b he =>
  ⟨decode_of_encode_eq (encode_ipush b) rfl, ipushState b s, (execIpush.eq_1 b s).trans (command_of_ok he rfl), rfl,
    ilen_ipushState b s, read_ibuf_ipushState b s⟩

/-- Settles O41: the range check is the one on the index of the cell. -/
theorem wrdWritesOneByte : Obligations.WrdWritesOneByte := by
  intro s i b he hi
  refine ⟨decode_of_encode_eq (encode_wrd i b) (decide_eq_true hi), fun hin => ?_, fun hout => ?_⟩
  · exact ⟨_, exec_of_inRange (execWrd.eq_1 i b s) he (decide_eq_true (Nat.lt_succ_of_le hin)), rfl,
      Memory.read_write s.dbuf i b⟩
  · rw [← encode_wrd]
    exact exec_of_not_inRange (execWrd.eq_1 i b s) he (decide_eq_false (Nat.not_lt.2 hout))

/-- Settles O40: an operand in range fits the register. -/
theorem setlvlAndSetverSetOrRefuse : Obligations.SetlvlAndSetverSetOrRefuse := by
  intro s n he hn
  have hlvl := execSetlvl.eq_1 n s
  have hver := execSetver.eq_1 n s
  refine ⟨decode_of_encode_eq (encode_setlvl n) (decide_eq_true hn),
    decode_of_encode_eq (encode_setver n) (decide_eq_true hn), fun h3 => ?_, fun h3 => ?_, fun h1 h10 => ?_, fun hout => ?_⟩
  · refine ⟨_, exec_of_inRange hlvl he (decide_eq_true h3), ?_, rfl⟩
    exact Nat.mod_eq_of_lt (Nat.lt_succ_of_le h3)
  · rw [← encode_setlvl]
    exact exec_of_not_inRange hlvl he (decide_eq_false (Nat.not_le.2 h3))
  · have hversion : (BitVec.ofNat 4 n).toNat = n := toNat_ofNat_of_le_maxVersion h10
    refine ⟨_, exec_of_inRange hver he (by simp [h1, h10, Config.maxVersion]), hversion, ?_, rfl⟩
    rw [State.nmod, hversion]
  · rw [← encode_setver]
    exact exec_of_not_inRange hver he (by simp [Config.maxVersion]; omega)

end Sys2Proof.Machine

/-! SUPPORT. The block layout and the capacities (R113, R131, R132): the printed tables, and SELVER, which searches the
capacities (R115). -/
namespace Sys2Proof.Machine

/-! The layout of each (version, level) against the printed tables. -/

/-- The table of R131, row by row. -/
theorem layout_printed : ∀ v ≤ 10, 1 ≤ v → ∀ l : BitVec 2,
    (blocks v l).length = tableEntry blockCountRows v l ∧ ecCountOf v l = tableEntry ecCountRows v l ∧
      dtotOf v l = tableEntry dtotRows v l ∧ ((blocks v l).map RSBlock.total).sum = printedCtot v := by
  decide +kernel

/-- R132(a), and the data lengths of R132(e). -/
theorem block_ec_data : ∀ v ≤ 10, ∀ l : BitVec 2, ∀ b ∈ blocks v l,
    b.total - b.data = ecCountOf v l ∧ 9 ≤ b.data ∧ b.data ≤ 116 := by
  decide +kernel

/-- R132(b). -/
theorem blocks_pairwise : ∀ v ≤ 10, ∀ l : BitVec 2,
    (blocks v l).Pairwise fun a b => a.data ≤ b.data ∧ b.data ≤ a.data + 1 := by
  decide +kernel

/-- R132(d). -/
theorem dtotOf_add_ec : ∀ v ≤ 10, 1 ≤ v → ∀ l : BitVec 2,
    dtotOf v l + (blocks v l).length * ecCountOf v l = printedCtot v := by
  decide +kernel

/-- The number of blocks in R132(e), and R132(f). -/
theorem length_blocks_ecCount_mem : ∀ v ≤ 10, 1 ≤ v → ∀ l : BitVec 2,
    1 ≤ (blocks v l).length ∧ (blocks v l).length ≤ 8 ∧ ecCountOf v l ∈ ecLengths := by
  decide +kernel

theorem printedCtot_le : ∀ v ≤ 10, printedCtot v ≤ Config.cwSize := by decide

/-- The capacities as R113 prints them. -/
theorem capacity_eq_printedCapacity : ∀ v ≤ 10, 1 ≤ v → ∀ l : BitVec 2, capacity v l = printedCapacity v l := by
  decide +kernel

/-- "Every column rises with the version" (R113). -/
theorem printedCapacity_lt_succ : ∀ v < 10, 1 ≤ v → ∀ l : BitVec 2, printedCapacity v l < printedCapacity (v + 1) l := by
  decide +kernel

theorem lenbits_eq {v : Nat} (hv : v ≤ 10) : lenbits v = if v = 10 then 16 else 8 := by
  unfold lenbits
  split <;> split <;> omega

/-- Settles O42: each table is compared entry by entry. -/
theorem layoutAndCapacityTables : Obligations.LayoutAndCapacityTables := by
  intro l v hmem
  have hrange : v ∈ List.range' 1 10 := hmem
  obtain ⟨h1, hlt⟩ := List.mem_range'_1.1 hrange
  have h10 : v ≤ 10 := by omega
  have h11 : v ∈ List.range 11 := List.mem_range.2 hlt
  obtain ⟨hcount, hec, hdtot, hctot⟩ := layout_printed v h10 h1 l
  obtain ⟨hmin, hmax, hmemEc⟩ := length_blocks_ecCount_mem v h10 h1 l
  have hecTotal : (blocks v l).length * ecCountOf v l ≤ 224 := ecTotal_eq v h11 l ▸ ecTotal_le v h11 l
  exact ⟨hcount, hec, hdtot, hctot, block_ec_data v h10 l, blocks_pairwise v h10 l, dtotOf_add_ec v h10 h1 l, hmin, hmax,
    hmemEc, dtotOf_le v h11 l, hecTotal, printedCtot_le v h10, lenbits_eq h10, capacity_eq_printedCapacity v h10 h1 l,
    fun hv => printedCapacity_lt_succ v hv h1 l⟩

/-! SELVER (R115). -/

/-- OVF of SELVER: no version has the capacity. -/
theorem selverOverflows_iff {l : BitVec 2} {n : Nat} :
    selverOverflows l n = true ↔ ∀ v, 1 ≤ v → v ≤ 10 → printedCapacity v l < n := by
  simp only [selverOverflows, List.all_eq_true, decide_eq_true_eq, List.mem_range'_1, Config.maxVersion]
  constructor
  · intro h v h1 h10
    rw [← capacity_eq_printedCapacity v h10 h1]
    exact h v ⟨h1, by omega⟩
  · intro h v ⟨h1, hlt⟩
    have h10 : v ≤ 10 := by omega
    rw [capacity_eq_printedCapacity v h10 h1]
    exact h v h1 h10

/-- The search stops at the first version with the capacity, or leaves 10. -/
theorem selectVersion_cases (l : BitVec 2) (n : Nat) :
    (n ≤ capacity (selectVersion l n) l ∧ ∀ v, 1 ≤ v → v < selectVersion l n → capacity v l < n) ∨
      (selverOverflows l n = true ∧ selectVersion l n = 10) := by
  rw [selectVersion]
  cases h : (List.range' 1 Config.maxVersion).find? fun v => n ≤ capacity v l with
  | none => exact .inr ⟨by simpa [selverOverflows] using h, rfl⟩
  | some u =>
    obtain ⟨hfits, -, hfirst⟩ := List.find?_range'_eq_some.1 h
    exact .inl ⟨by simpa using hfits, fun v h1 hv => by simpa using hfirst v h1 hv⟩

/-- Settles O43: OVF tells whether the search found a version. -/
theorem selverPicksTheFirstVersionThatFits : Obligations.SelverPicksTheFirstVersionThatFits := by
  intro s he
  obtain ⟨hmin, hmax⟩ := selectVersion_mem s.level s.ilen.toNat
  have hversion : (selverState s).version.toNat = selectVersion s.level s.ilen.toNat := toNat_ofNat_of_le_maxVersion hmax
  refine ⟨decode_of_encode_eq rfl rfl, selverState s, (execSelver.eq_1 s).trans (command_of_ok he rfl), rfl,
    fun ⟨v, h1, h10, hfits⟩ => ?_, fun hnone => ?_⟩
  · have hovf : ¬ selverOverflows s.level s.ilen.toNat = true := fun h =>
      Nat.not_lt.2 hfits (selverOverflows_iff.1 h v h1 h10)
    obtain ⟨hcap, hfirst⟩ | ⟨h, -⟩ := selectVersion_cases s.level s.ilen.toNat
    · rw [hversion, ← capacity_eq_printedCapacity _ hmax hmin]
      refine ⟨Bool.eq_false_iff.2 hovf, hmin, hmax, hcap, fun u hu hlt => ?_⟩
      rw [← capacity_eq_printedCapacity u (hlt.le.trans hmax) hu]
      exact hfirst u hu hlt
    · exact absurd h hovf
  · obtain ⟨hcap, -⟩ | ⟨hovf, hten⟩ := selectVersion_cases s.level s.ilen.toNat
    · rw [capacity_eq_printedCapacity _ hmax hmin] at hcap
      exact absurd (hnone _ hmin hmax) (Nat.not_lt.2 hcap)
    · exact ⟨hovf, congrArg (BitVec.ofNat 4) hten⟩

end Sys2Proof.Machine

/-! SUPPORT. The Bit Buffer (R44, R116 to R118): PACK's list of bits against the bit that the rules give for each position, and
its bytes in DBUF. -/
namespace Sys2Proof.Machine

/-! The bits that are put (R44, R116). -/

@[simp] theorem length_putBits (value w : Nat) : (putBits value w).length = w := by simp [putBits]

theorem getElem?_putBits (value : Nat) {w j : Nat} (hj : j < w) :
    (putBits value w)[j]? = some (value.testBit (w - 1 - j)) := by
  simp [putBits, hj]

theorem length_flatMap_putBits {α : Type*} (g : α → Nat) (as : List α) :
    (as.flatMap fun a => putBits (g a) 8).length = 8 * as.length := by
  simp [List.length_flatMap, Nat.mul_comm]

/-- Bit j of a sequence of bytes is bit 7 - j mod 8 of byte j div 8. -/
theorem getElem?_flatMap_putBits {α : Type*} (g : α → Nat) (as : List α) (j : Nat) :
    (as.flatMap fun a => putBits (g a) 8)[j]? = as[j / 8]?.map fun a => (g a).testBit (7 - j % 8) := by
  induction as generalizing j with
  | nil => simp
  | cons a as ih =>
    rw [List.flatMap_cons, List.getElem?_append, length_putBits]
    split
    · next hj => simp [getElem?_putBits _ hj, Nat.div_eq_of_lt hj, Nat.mod_eq_of_lt hj]
    · next hj =>
      obtain ⟨k, rfl⟩ := Nat.exists_eq_add_of_le' (Nat.le_of_not_lt hj)
      rw [Nat.add_sub_cancel, ih, Nat.add_div_right k (by decide), Nat.add_mod_right, List.getElem?_cons_succ]

/-! Mode indicator, length indicator and payload (R117). -/

/-- The number of their bits. -/
def bodyLength (v n : Nat) : Nat := 4 + lenbits v + 8 * min n 274

theorem lenbits_eq_or (v : Nat) : lenbits v = 8 ∨ lenbits v = 16 := by
  unfold lenbits
  split <;> simp

/-- R120(a). -/
theorem bodyLength_mod (v n : Nat) : bodyLength v n % 8 = 4 := by
  have := lenbits_eq_or v
  rw [bodyLength]
  omega

theorem length_payloadBits (v n : Nat) (m : Memory) : (payloadBits v n m).length = bodyLength v n := by
  simp only [payloadBits, List.length_append, length_putBits, length_flatMap_putBits, Memory.length_slice, bodyLength]

theorem getElem?_payloadBits (v n : Nat) (m : Memory) {j : Nat} (hj : j < bodyLength v n) :
    (payloadBits v n m)[j]? = some (packedBit v n m j) := by
  rw [bodyLength] at hj
  simp only [payloadBits, packedBit, List.getElem?_append, List.length_append, length_putBits]
  by_cases hmode : j < 4
  · rw [if_pos (by omega), if_pos hmode, if_pos hmode, getElem?_putBits _ hmode]
  by_cases hhead : j < 4 + lenbits v
  · rw [if_pos hhead, if_neg hmode, if_neg hmode, if_pos hhead, getElem?_putBits _ (by omega)]
    congr 2
    omega
  · have hbyte : (j - (4 + lenbits v)) / 8 < min n 274 := by omega
    rw [if_neg hhead, if_neg hmode, if_neg hhead, if_pos hj, getElem?_flatMap_putBits]
    simp [Memory.slice, Config.ibufSize, List.getElem?_range hbyte, Memory.bitAt]

/-! The terminator and the pad bytes (R117). -/

theorem packedBit_terminator {v n j : Nat} (m : Memory) (hj : bodyLength v n ≤ j) (hj4 : j < bodyLength v n + 4) :
    packedBit v n m j = false := by
  rw [bodyLength] at hj hj4
  rw [packedBit, if_neg (by omega), if_neg (by omega), if_neg (by omega), if_pos hj4]

theorem packedBit_pad {v n j : Nat} (m : Memory) (hj : bodyLength v n + 4 ≤ j) :
    packedBit v n m j =
      (padByte ((j - (bodyLength v n + 4)) / 8)).testBit (7 - (j - (bodyLength v n + 4)) % 8) := by
  rw [bodyLength] at hj ⊢
  rw [packedBit, if_neg (by omega), if_neg (by omega), if_neg (by omega), if_neg (by omega), padByte]

/-! The whole stream (R117, R118). -/

theorem padToByte_of_mod_eq_zero {bits : List Bool} (h : bits.length % 8 = 0) : padToByte bits = bits := by
  simp [padToByte, h]

/-- R118: a stream that is too long is cut, and nothing is added. -/
theorem packBits_of_lt {d : Nat} {bits : List Bool} (h : 8 * d < bits.length) : packBits (8 * d) bits = bits.take (8 * d) := by
  have hlen : (bits.take (8 * d)).length = 8 * d := List.length_take_of_le h.le
  rw [packBits, addTerminator, if_neg (by omega), padToByte_of_mod_eq_zero (by omega), addPadBytes, hlen]
  simp

/-- R120(a): a stream that fits has room for the whole terminator, after which it is on a byte boundary. -/
theorem packBits_of_le {d : Nat} {bits : List Bool} (h : bits.length ≤ 8 * d) (hmod : bits.length % 8 = 4) :
    packBits (8 * d) bits = bits ++ (putBits 0 4 ++
      (List.range ((8 * d - (bits.length + 4)) / 8)).flatMap fun k => putBits (padByte k) 8) := by
  have hlen : (bits ++ putBits 0 4).length = bits.length + 4 := by simp
  rw [packBits, List.take_of_length_le h, addTerminator, if_pos (by omega), padToByte_of_mod_eq_zero (by omega),
    addPadBytes, hlen, List.append_assoc]

theorem getElem?_packBits (v n d : Nat) (m : Memory) {j : Nat} (hj : j < 8 * d) :
    (packBits (8 * d) (payloadBits v n m))[j]? = some (packedBit v n m j) := by
  have hlen := length_payloadBits v n m
  have hmod := bodyLength_mod v n
  obtain hover | hfits := Nat.lt_or_ge (8 * d) (bodyLength v n)
  · rw [packBits_of_lt (by omega), List.getElem?_take_of_lt hj, getElem?_payloadBits v n m (by omega)]
  · rw [packBits_of_le (by omega) (by omega), hlen, List.getElem?_append, List.getElem?_append, hlen, length_putBits]
    by_cases hbody : j < bodyLength v n
    · rw [if_pos hbody, getElem?_payloadBits v n m hbody]
    by_cases hterm : j < bodyLength v n + 4
    · rw [if_neg hbody, if_pos (by omega), getElem?_putBits _ (by omega), Nat.zero_testBit,
        packedBit_terminator m (by omega) hterm]
    · rw [if_neg hbody, if_neg (by omega), getElem?_flatMap_putBits, List.getElem?_range (by omega), Nat.sub_sub,
        packedBit_pad m (by omega), Option.map_some]

/-! The bytes in DBUF (R44). -/

theorem bit_lt_two (b : Bool) : bit b < 2 := by cases b <;> decide

/-- The number whose n binary digits, the highest first, are `f 0` to `f (n - 1)`. -/
def digitsValue (f : Nat → Bool) (n : Nat) : Nat := (List.range n).foldl (fun acc j => 2 * acc + bit (f j)) 0

theorem digitsValue_succ (f : Nat → Bool) (n : Nat) : digitsValue f (n + 1) = 2 * digitsValue f n + bit (f n) := by
  simp [digitsValue, List.range_succ]

theorem testBit_digitsValue (f : Nat → Bool) {n i : Nat} (hi : i < n) : (digitsValue f n).testBit (n - 1 - i) = f i := by
  induction n with
  | zero => omega
  | succ n ih =>
    rw [digitsValue_succ, Nat.add_sub_cancel]
    obtain hlt | rfl := Nat.lt_succ_iff_lt_or_eq.1 hi
    · have hhalf : (2 * digitsValue f n + bit (f n)) / 2 = digitsValue f n := by
        have := bit_lt_two (f n)
        omega
      have hsub : n - i = n - 1 - i + 1 := by omega
      rw [hsub, Nat.testBit_succ, hhalf, ih hlt]
    · cases f i <;> simp [bit]

theorem byteOfBits_eq (bits : List Bool) (k : Nat) :
    byteOfBits bits k = BitVec.ofNat 8 (digitsValue (fun j => bits.getD (8 * k + j) false) 8) := rfl

theorem testBit_byteOfBits (bits : List Bool) (k : Nat) {i : Nat} (hi : i < 8) :
    (byteOfBits bits k).toNat.testBit (7 - i) = bits.getD (8 * k + i) false := by
  have hlt : 7 - i < 8 := by omega
  rw [byteOfBits_eq, BitVec.toNat_ofNat, Nat.testBit_mod_two_pow, decide_eq_true hlt, Bool.true_and]
  exact testBit_digitsValue _ hi

/-- DBUF holds PACK's bits in their order. -/
theorem bitAt_packState (s : State) {j : Nat} (hj : j < 8 * s.dtot) : (packState s).dbuf.bitAt j =
    (packBits (8 * s.dtot) (payloadBits s.version.toNat s.ilen.toNat s.ibuf)).getD j false := by
  have hbyte : j / 8 < dtotOf s.version.toNat s.level := Nat.div_lt_of_lt_mul hj
  rw [Memory.bitAt, packState, Memory.read_writeBlock, length_packBytes, if_pos ⟨Nat.zero_le _, by omega⟩, packBytes,
    Nat.sub_zero, List.getD_eq_getElem?_getD, List.getElem?_map, List.getElem?_range hbyte, Option.map_some,
    Option.getD_some, testBit_byteOfBits _ _ (Nat.mod_lt _ (by decide)), Nat.div_add_mod]
  rfl

theorem read_packState_of_ge (s : State) {i : Nat} (hi : s.dtot ≤ i) : (packState s).dbuf.read i = s.dbuf.read i := by
  rw [State.dtot] at hi
  rw [packState, Memory.read_writeBlock, length_packBytes, if_neg (by omega)]

/-! OVF (R118, R120(b)). -/

/-- The data codewords of every (version, level) hold the two indicators. -/
theorem head_le_dtotOf : ∀ v ≤ 10, 1 ≤ v → ∀ l : BitVec 2, 4 + lenbits v ≤ 8 * dtotOf v l := by decide +kernel

/-- The capacity is the greatest payload length that fits (R113); IBUF is no shorter. -/
theorem lt_bodyLength_iff {v : Nat} (h1 : 1 ≤ v) (h10 : v ≤ 10) (l : BitVec 2) (n : Nat) :
    8 * dtotOf v l < bodyLength v n ↔ capacity v l < n := by
  have hhead := head_le_dtotOf v h10 h1 l
  have hdtot : dtotOf v l ≤ 274 := dtotOf_le v (List.mem_range.2 (Nat.lt_succ_of_le h10)) l
  have hlenbits := lenbits_eq_or v
  rw [bodyLength, capacity]
  omega

theorem ovf_packState_iff {s : State} (hs : s.LegalVersion) :
    (packState s).ovf = true ↔ printedCapacity s.version.toNat s.level < s.ilen.toNat := by
  obtain ⟨h1, h10⟩ := hs
  rw [← capacity_eq_printedCapacity _ h10 h1, ← lt_bodyLength_iff h1 h10, ← length_payloadBits _ _ s.ibuf]
  exact decide_eq_true_iff

/-- Settles O44: the bits of the list are those the rules give, and DBUF holds them. -/
theorem packStoresTheBitStream : Obligations.PackStoresTheBitStream := by
  intro s he hs
  refine ⟨decode_of_encode_eq rfl rfl, packState s, (execPack.eq_1 s).trans (command_of_ok he rfl), rfl,
    ovf_packState_iff hs, fun j hj => ?_, fun i hi => read_packState_of_ge s hi⟩
  rw [bitAt_packState s hj, List.getD_eq_getElem?_getD, getElem?_packBits _ _ _ _ hj, Option.getD_some]

end Sys2Proof.Machine

/-! SUPPORT. The RS blocks (R131): where a block's data codewords stand in DBUF, and the EC codewords that RSENC leaves for it
in ECBUF (R133, R134, R137). -/
namespace Sys2Proof.Machine

/-! The layout of the blocks in DBUF (R131). -/

theorem getElem?_withOffsets (off : Nat) (bs : List RSBlock) (b : Nat) :
    (withOffsets off bs)[b]? = bs[b]?.map fun k => (k, off + ((bs.take b).map RSBlock.data).sum) := by
  induction bs generalizing off b with
  | nil => rfl
  | cons k bs ih =>
    cases b with
    | zero => rfl
    | succ b => simp [withOffsets, ih, Nat.add_assoc]

theorem getElem?_withOffsets_blocks {v : Nat} {l : BitVec 2} {b : Nat} (hb : b < (blocks v l).length) :
    (withOffsets 0 (blocks v l))[b]? = some ((blocks v l)[b], blockOffset v l b) := by
  rw [getElem?_withOffsets, List.getElem?_eq_getElem hb, Option.map_some, Nat.zero_add, blockOffset]

theorem blockData_eq_getElem {v : Nat} {l : BitVec 2} {b : Nat} (hb : b < (blocks v l).length) :
    blockData v l b = (blocks v l)[b].data := by
  simp [blockData, hb]

/-- R132(a). -/
theorem ec_of_mem_blocks {v : Nat} (hv : v ≤ 10) {l : BitVec 2} {k : RSBlock} (hk : k ∈ blocks v l) : k.ec = ecCountOf v l :=
  (block_ec_data v hv l k hk).1

theorem ecLengths_lt : ∀ n ∈ ecLengths, n < 255 := by decide

theorem ecCountOf_lt {v : Nat} (h1 : 1 ≤ v) (h10 : v ≤ 10) (l : BitVec 2) : ecCountOf v l < 255 :=
  ecLengths_lt _ (length_blocks_ecCount_mem v h10 h1 l).2.2

/-! A block write, read back. -/

theorem Memory.slice_writeBlock (m : Memory) {bs : List Byte} {start n : Nat} (h : start + n ≤ bs.length) :
    (m.writeBlock 0 bs).slice start n = (bs.drop start).take n := by
  refine List.ext_getElem (by simp; omega) fun k hk _ => ?_
  have hk : k < n := by simpa using hk
  simp only [Memory.slice, List.getElem_map, List.getElem_range, List.getElem_take, List.getElem_drop,
    Memory.read_writeBlock]
  rw [if_pos (by omega), Nat.sub_zero, List.getD_eq_getElem]

theorem Memory.read_writeBlock_of_le (m : Memory) {bs : List Byte} {j : Nat} (h : bs.length ≤ j) :
    (m.writeBlock 0 bs).read j = m.read j := by
  rw [Memory.read_writeBlock, if_neg (by omega)]

theorem Memory.read_writeBlock_of_getElem? (m : Memory) {bs : List Byte} {j : Nat} {x : Byte} (h : bs[j]? = some x) :
    (m.writeBlock 0 bs).read j = x := by
  obtain ⟨hj, rfl⟩ := List.getElem?_eq_some_iff.1 h
  rw [Memory.read_writeBlock, if_pos (by omega), Nat.sub_zero, List.getD_eq_getElem]

/-! The EC codewords of one block (R134, R137). -/

theorem length_rightAlign {n : Nat} {r : List Byte} (h : r.length ≤ n) : (rightAlign n r).length = n := by
  simp [rightAlign, zeros, h]

/-- The remainder by the generator polynomial fits the block's EC codewords, so the alignment only adds zeros (R135). -/
theorem ecCodewords_eq_rightAlign (d : List Byte) {n : Nat} (hn : n < 255) : ∃ r,
    pmod (d ++ zeros n) (generatorPoly n) = .ok r ∧ r.length ≤ n ∧ ecCodewords d n = .ok (rightAlign n r) := by
  have hne : generatorPoly n ≠ [] := List.ne_nil_of_length_eq_add_one (length_generatorPoly n)
  obtain ⟨r, hr, -, hlt⟩ :=
    pmod_ok hne (fun y hy hy0 => zero_notMem_generatorPoly hn (hy0 ▸ hy)) (d ++ zeros n)
  rw [length_generatorPoly] at hlt
  refine ⟨r, hr, Nat.le_of_lt_succ hlt, ?_⟩
  simp only [ecCodewords, pgen_eq_ok hn.le, hr]

/-- The EC codewords of block b stand from b·n on (R25). -/
theorem ecBytes_block {m : Memory} {bs : List (RSBlock × Nat)} {es : List Byte} {n b : Nat} {p : RSBlock × Nat}
    (hn : n < 255) (hec : ∀ q ∈ bs, q.1.ec = n) (h : ecBytes m bs = .ok es) (hb : bs[b]? = some p) :
    ecCodewords (m.slice p.2 p.1.data) n = .ok ((es.drop (b * n)).take n) := by
  induction bs generalizing es b with
  | nil => cases hb
  | cons q bs ih =>
    obtain ⟨r, -, hlen, he⟩ := ecCodewords_eq_rightAlign (m.slice q.2 q.1.data) hn
    have hlen := length_rightAlign hlen
    simp only [ecBytes, hec q List.mem_cons_self, he] at h
    split at h
    · cases h
    · next es' hes =>
      cases h
      cases b with
      | zero =>
        obtain rfl : q = p := Option.some.inj hb
        rw [Nat.zero_mul, List.drop_zero, List.take_left' hlen, he]
      | succ b =>
        rw [ih (fun q hq => hec q (List.mem_cons_of_mem _ hq)) hes hb, Nat.succ_mul, Nat.add_comm, ← List.drop_drop,
          List.drop_left' hlen]

/-! RSENC (R134). -/

/-- The EC codewords of all blocks in a buffer: those of block b are the right-aligned remainder (R134, R135, R137). -/
theorem slice_writeBlock_ecBytes {v : Nat} (h1 : 1 ≤ v) (h10 : v ≤ 10) {l : BitVec 2} {m : Memory} {es : List Byte}
    (hes : ecBytes m (withOffsets 0 (blocks v l)) = .ok es) (hlen : es.length = (blocks v l).length * ecCountOf v l)
    {b : Nat} (hb : b < (blocks v l).length) (ecbuf : Memory) : ∃ r,
    pmod (m.slice (blockOffset v l b) (blockData v l b) ++ zeros (ecCountOf v l)) (generatorPoly (ecCountOf v l)) = .ok r ∧
      r.length ≤ ecCountOf v l ∧
      (ecbuf.writeBlock 0 es).slice (b * ecCountOf v l) (ecCountOf v l) = rightAlign (ecCountOf v l) r := by
  have hn := ecCountOf_lt h1 h10 l
  obtain ⟨r, hr, hle, hcodewords⟩ := ecCodewords_eq_rightAlign (m.slice (blockOffset v l b) (blockData v l b)) hn
  have hblock := ecBytes_block hn (fun q hq => ec_of_mem_blocks h10 (withOffsets_fst hq)) hes (getElem?_withOffsets_blocks hb)
  rw [← blockData_eq_getElem hb, hcodewords] at hblock
  have hfits : b * ecCountOf v l + ecCountOf v l ≤ es.length := by
    rw [hlen, ← Nat.succ_mul]
    exact Nat.mul_le_mul_right _ hb
  exact ⟨r, hr, hle, (Memory.slice_writeBlock ecbuf hfits).trans (Except.ok.inj hblock).symm⟩

theorem exec_rsenc_of_running {s : State} (he : s.Running) (hs : s.LegalVersion) : ∃ es,
    exec .rsenc s = .next { s with ecbuf := s.ecbuf.writeBlock 0 es } ∧
      ecBytes s.dbuf (withOffsets 0 (blocks s.version.toNat s.level)) = .ok es ∧
      es.length = (blocks s.version.toNat s.level).length * ecCountOf s.version.toNat s.level := by
  obtain ⟨u, hu⟩ := rsencState_ok s
  obtain ⟨es, hes, rfl⟩ := rsencState_eq hu
  refine ⟨es, (execRsenc.eq_1 s).trans (command_of_ok he hu), hes, ?_⟩
  rw [length_ecBytes_of_legalVersion hs hes, ecTotal_eq _ hs.mem_range]

/-- Settles O45: the generator polynomial has no zero coefficient, so no block faults, and its remainder fits. -/
theorem rsencLeavesTheRemainders : Obligations.RsencLeavesTheRemainders := by
  intro s he hs
  obtain ⟨es, hexec, hes, hlen⟩ := exec_rsenc_of_running he hs
  refine ⟨decode_of_encode_eq rfl rfl, _, hexec, rfl, fun b hb => ?_,
    fun j hj => Memory.read_writeBlock_of_le _ (hlen.trans_le hj)⟩
  obtain ⟨r, hr, hle, hslice⟩ := slice_writeBlock_ecBytes hs.1 hs.2 hes hlen hb s.ecbuf
  refine ⟨_, r, pgen_eq_ok (ecCountOf_lt hs.1 hs.2 s.level).le, hr, hle, fun i hi => ?_⟩
  rw [← Memory.getD_slice _ _ _ _ hi, hslice, rightAlign]

/-! A block with its EC codewords as a polynomial (R133). -/

theorem coeff_append (a b : List Byte) (k : Nat) :
    coeff (a ++ b) k = if k < b.length then coeff b k else coeff a (k - b.length) := by
  simp only [coeff, List.reverse_append]
  split
  · next h => exact List.getD_append _ _ _ _ (by simpa using h)
  · next h => rw [List.getD_append_right _ _ _ _ (by simpa using h), List.length_reverse]

/-- d(x)·x^n and e(x) have no power in common, so that their concatenation is their sum. -/
theorem coeff_append_eq_xor (d e : List Byte) (k : Nat) :
    coeff (d ++ e) k = coeff (d ++ zeros e.length) k ^^^ coeff e k := by
  have hzeros : (zeros e.length).length = e.length := List.length_replicate
  rw [coeff_append, coeff_append d, hzeros]
  split
  · simp [coeff_zeros]
  · next h => simp [coeff_of_length_le (Nat.not_lt.1 h)]

/-- The remainder in the place of the zeros cancels the remainder of the division: what is left is a multiple of the
divisor. -/
theorem append_rightAlign_multiple {d g r : List Byte} {n : Nat} (hne : g ≠ []) (hg : 0 ∉ g)
    (hr : pmod (d ++ zeros n) g = .ok r) (hle : r.length ≤ n) :
    ∃ q, ∀ k, coeff (d ++ rightAlign n r) k = productCoeff q g k := by
  obtain ⟨q, hq⟩ := pmod_quotient hne hg hr
  refine ⟨q, fun k => ?_⟩
  calc coeff (d ++ rightAlign n r) k
      = coeff (d ++ zeros n) k ^^^ coeff r k := by
        rw [coeff_append_eq_xor, length_rightAlign hle, rightAlign, coeff_zeros_append]
    _ = productCoeff q g k := by simp [hq]

/-- Settles O46: RSENC leaves the remainder where the division had zeros. -/
theorem rsencBlocksAreMultiplesOfTheGenerator : Obligations.RsencBlocksAreMultiplesOfTheGenerator := by
  intro s t he hs hexec b hb g hg
  have hn := ecCountOf_lt hs.1 hs.2 s.level
  have hgen : generatorPoly (ecCountOf s.version.toNat s.level) = g :=
    Except.ok.inj ((pgen_eq_ok hn.le).symm.trans (pgen_printed _ hg))
  obtain ⟨es, hexec', hes, hlen⟩ := exec_rsenc_of_running he hs
  obtain rfl : t = { s with ecbuf := s.ecbuf.writeBlock 0 es } := Host.Outcome.next.inj (hexec.symm.trans hexec')
  obtain ⟨r, hr, hle, hslice⟩ := slice_writeBlock_ecBytes hs.1 hs.2 hes hlen hb s.ecbuf
  rw [hslice, ← hgen]
  exact append_rightAlign_multiple (List.ne_nil_of_length_eq_add_one (length_generatorPoly _))
    (zero_notMem_generatorPoly hn) hr hle

end Sys2Proof.Machine

/-! SUPPORT. The Codeword Interleaver (R136): the length of the columns and the position of each codeword in them. -/
namespace Sys2Proof.Machine

/-! Positions in lists that are put together. -/

/-- Element j of part i of parts in a row stands behind the parts before. -/
theorem getElem?_flatMap_range {α : Type*} (f : Nat → List α) {i n j : Nat} (hi : i < n) (hj : j < (f i).length) :
    ((List.range n).flatMap f)[((List.range i).flatMap f).length + j]? = (f i)[j]? := by
  obtain ⟨k, rfl⟩ := Nat.exists_eq_add_of_lt hi
  have hsplit : (List.range (i + k + 1)).flatMap f =
      (List.range i).flatMap f ++ (f i ++ ((List.range k).map (i + 1 + ·)).flatMap f) := by
    rw [Nat.add_right_comm, List.range_add, List.range_succ, List.flatMap_append, List.flatMap_append,
      List.flatMap_singleton, List.append_assoc]
  rw [hsplit, List.getElem?_append_right (Nat.le_add_right _ _), Nat.add_sub_cancel_left, List.getElem?_append_left hj]

/-- What a filter keeps of element b stands behind what it keeps of the elements before. -/
theorem getElem?_filter_countP {α : Type*} {q : α → Bool} {as : List α} {b : Nat} {a : α} (hb : as[b]? = some a)
    (ha : q a = true) : (as.filter q)[(as.take b).countP q]? = some a := by
  induction as generalizing b with
  | nil => cases hb
  | cons x as ih =>
    cases b with
    | zero =>
      obtain rfl : x = a := Option.some.inj hb
      rw [List.filter_cons_of_pos ha]
      rfl
    | succ b =>
      have ih := ih hb
      rw [List.take_succ_cons]
      by_cases hx : q x = true
      · rw [List.filter_cons_of_pos hx, List.countP_cons_of_pos hx, List.getElem?_cons_succ, ih]
      · rw [List.filter_cons_of_neg hx, List.countP_cons_of_neg hx, ih]

/-! The columns of the data codewords. -/

/-- Column i takes a codeword of each block that is not exhausted. -/
theorem sum_min_succ (bs : List RSBlock) (i : Nat) : (bs.map fun k => min (i + 1) k.data).sum =
    (bs.map fun k => min i k.data).sum + bs.countP fun k => i < k.data := by
  induction bs with
  | nil => rfl
  | cons k bs ih =>
    simp only [List.map_cons, List.sum_cons, List.countP_cons, ih, decide_eq_true_eq]
    split <;> omega

/-- The codewords before column i, block by block: a block is exhausted after its data codewords. -/
theorem length_dataColumns (m : Memory) (off : Nat) (bs : List RSBlock) (i : Nat) :
    ((List.range i).flatMap (dataColumn m (withOffsets off bs))).length = (bs.map fun k => min i k.data).sum := by
  induction i with
  | zero => simp
  | succ i ih =>
    rw [List.range_succ, List.flatMap_append, List.length_append, ih, List.flatMap_singleton, length_dataColumn,
      sum_min_succ]

theorem data_le_maxData {bs : List RSBlock} {k : RSBlock} (hk : k ∈ bs) : k.data ≤ maxData bs := by
  rw [maxData, List.foldl_eq_foldr]
  exact List.le_max_of_le (List.mem_map_of_mem hk) le_rfl

theorem length_dataColumns_maxData (m : Memory) (off : Nat) (bs : List RSBlock) :
    ((List.range (maxData bs)).flatMap (dataColumn m (withOffsets off bs))).length = (bs.map RSBlock.data).sum := by
  rw [length_dataColumns]
  exact congrArg List.sum (List.map_congr_left fun k hk => min_eq_right (data_le_maxData hk))

/-- Where codeword i of block b stands in its column. -/
theorem getElem?_dataColumn (m : Memory) {v : Nat} {l : BitVec 2} {b i : Nat} (hb : b < (blocks v l).length)
    (hi : i < blockData v l b) :
    (dataColumn m (withOffsets 0 (blocks v l)) i)[((blocks v l).take b).countP fun k => i < k.data]? =
      some (m.read (blockOffset v l b + i)) := by
  rw [blockData_eq_getElem hb] at hi
  have hcount : ((blocks v l).take b).countP (fun k => i < k.data) =
      ((withOffsets 0 (blocks v l)).take b).countP fun k => i < k.1.data := by
    conv_lhs => rw [← map_fst_withOffsets 0 (blocks v l), ← List.map_take, List.countP_map]
    rfl
  rw [hcount, dataColumn, List.getElem?_map,
    getElem?_filter_countP (getElem?_withOffsets_blocks hb) (decide_eq_true hi), Option.map_some]

theorem getElem?_dataColumns (m : Memory) {v : Nat} {l : BitVec 2} {b i : Nat} (hb : b < (blocks v l).length)
    (hi : i < blockData v l b) :
    ((List.range (maxData (blocks v l))).flatMap (dataColumn m (withOffsets 0 (blocks v l))))[dataPosition v l b i]? =
      some (m.read (blockOffset v l b + i)) := by
  have hcolumn := getElem?_dataColumn m hb hi
  obtain ⟨hlt, -⟩ := List.getElem?_eq_some_iff.1 hcolumn
  have hmax : i < maxData (blocks v l) := by
    rw [blockData_eq_getElem hb] at hi
    exact hi.trans_le (data_le_maxData (List.getElem_mem hb))
  rw [dataPosition, ← length_dataColumns m 0, getElem?_flatMap_range _ hmax hlt, hcolumn]

/-! The columns of the EC codewords. -/

theorem length_ecColumns (m : Memory) (n ec i : Nat) : ((List.range i).flatMap (ecColumn m n ec)).length = i * n := by
  simp [List.length_flatMap]

theorem getElem?_ecColumns (m : Memory) {n ec b i : Nat} (hb : b < n) (hi : i < ec) :
    ((List.range ec).flatMap (ecColumn m n ec))[i * n + b]? = some (m.read (b * ec + i)) := by
  rw [← length_ecColumns m n ec, getElem?_flatMap_range _ hi (by simpa using hb)]
  simp [ecColumn, hb]

/-! The whole sequence (R136). -/

theorem length_interleave_eq_printedCtot {v : Nat} (h1 : 1 ≤ v) (h10 : v ≤ 10) (l : BitVec 2) (d e : Memory) :
    (interleave v l d e).length = printedCtot v := by
  rw [← dtotOf_add_ec v h10 h1 l, interleave, List.length_append, length_dataColumns_maxData, length_ecColumns, dtotOf,
    Nat.mul_comm (ecCountOf v l)]

theorem getElem?_interleave_data (d e : Memory) {v : Nat} {l : BitVec 2} {b i : Nat} (hb : b < (blocks v l).length)
    (hi : i < blockData v l b) : (interleave v l d e)[dataPosition v l b i]? = some (d.read (blockOffset v l b + i)) := by
  have hdata := getElem?_dataColumns d hb hi
  obtain ⟨hlt, -⟩ := List.getElem?_eq_some_iff.1 hdata
  rw [interleave, List.getElem?_append_left hlt, hdata]

theorem getElem?_interleave_ec (d e : Memory) {v : Nat} {l : BitVec 2} {b i : Nat} (hb : b < (blocks v l).length)
    (hi : i < ecCountOf v l) :
    (interleave v l d e)[dtotOf v l + i * (blocks v l).length + b]? = some (e.read (b * ecCountOf v l + i)) := by
  rw [interleave, Nat.add_assoc, dtotOf, ← length_dataColumns_maxData d 0,
    List.getElem?_append_right (Nat.le_add_right _ _), Nat.add_sub_cancel_left, getElem?_ecColumns e hb hi]

/-- Settles O47: the codewords before a codeword are the columns before its column and the blocks before its block. -/
theorem ilvInterleavesColumnWise : Obligations.IlvInterleavesColumnWise := by
  intro s he hs
  have hlen := length_interleave_eq_printedCtot hs.1 hs.2 s.level s.dbuf s.ecbuf
  have hcwlen : (ilvState s).cwlen.toNat = printedCtot s.version.toNat := by
    have hfits : printedCtot s.version.toNat < 2 ^ 9 := (printedCtot_le _ hs.2).trans_lt (by decide)
    rw [ilvState, hlen, BitVec.toNat_ofNat, Nat.mod_eq_of_lt hfits]
  refine ⟨decode_of_encode_eq rfl rfl, ilvState s, (execIlv.eq_1 s).trans (command_of_ok he rfl), rfl, hcwlen,
    fun b hb => ⟨fun i hi => ?_, fun i hi => ?_⟩, fun j hj => ?_⟩
  · exact Memory.read_writeBlock_of_getElem? s.cw (getElem?_interleave_data s.dbuf s.ecbuf hb hi)
  · exact Memory.read_writeBlock_of_getElem? s.cw (getElem?_interleave_ec s.dbuf s.ecbuf hb hi)
  · exact Memory.read_writeBlock_of_le s.cw (hlen.trans_le (hcwlen ▸ hj))

end Sys2Proof.Machine

/-! SUPPORT. Writing cells one after another (R43): what a matrix reads after a list of writes, and the writes of BUILD's
steps 1 to 4a cell by cell (R151 to R155). -/
namespace Sys2Proof.Machine

/-! The writes of a list. -/

theorem Matrix.read_set (m : Matrix) {r0 c0 : Nat} (hr : r0 < 57) (hc : c0 < 57) (k : Module) (r c : Nat) :
    (m.set r0 c0 k).read r c = if (r, c) = (r0, c0) then k else m.read r c := by
  by_cases h : r < 57 ∧ c < 57
  · by_cases hr0 : r0 = r <;> by_cases hc0 : c0 = c <;>
      simp_all [Matrix.read, Matrix.set, eq_comm]
  · have hne : (r, c) ≠ (r0, c0) := by
      rintro ⟨⟩
      exact h ⟨hr, hc⟩
    rw [if_neg hne, Matrix.read_outside _ h, Matrix.read_outside _ h]

@[simp] theorem Matrix.read_blank (r c : Nat) : Matrix.blank.read r c = .unset := by simp [Matrix.read, Matrix.blank]

/-- The list has a write of colour k to a cell exactly when the cell is in the n × n grid and `g` gives it k. So `g` says
what the list writes, and no cell gets two colours. -/
def Paints (n : Nat) (ws : List CellWrite) (g : Nat → Nat → Option Module) : Prop :=
  ∀ r c k, ((r, c), k) ∈ ws ↔ (r < n ∧ c < n) ∧ g r c = some k

theorem Matrix.stamp_cons (m : Matrix) (w : CellWrite) (ws : List CellWrite) :
    m.stamp (w :: ws) = (m.set w.1.1 w.1.2 w.2).stamp ws := rfl

theorem Matrix.stampUnset_cons (m : Matrix) (w : CellWrite) (ws : List CellWrite) :
    m.stampUnset (w :: ws) = (if m.read w.1.1 w.1.2 = .unset then m.set w.1.1 w.1.2 w.2 else m).stampUnset ws := rfl

/-- A cell that the list gives no other colour than `k` ends with `k` if the list writes it. -/
theorem Matrix.read_stamp_of_unique {ws : List CellWrite} {r c : Nat} {k : Module} (m : Matrix)
    (hin : ∀ w ∈ ws, w.1.1 < 57 ∧ w.1.2 < 57) (hk : ∀ w ∈ ws, w.1 = (r, c) → w.2 = k) :
    (m.stamp ws).read r c = if ((r, c), k) ∈ ws then k else m.read r c := by
  induction ws generalizing m with
  | nil => simp [Matrix.stamp]
  | cons w ws ih =>
    obtain ⟨hwr, hwc⟩ := hin w (by simp)
    have hset := Matrix.read_set m hwr hwc w.2 r c
    have ih := ih (m.set w.1.1 w.1.2 w.2) (fun x hx => hin x (by simp [hx])) fun x hx => hk x (by simp [hx])
    rw [Matrix.stamp_cons, ih, hset]
    by_cases hw : w.1 = (r, c)
    · have hwk : w = ((r, c), k) := Prod.ext hw (hk w (by simp) hw)
      simp [hwk]
    · have hwk : ((r, c), k) ≠ w := fun h => hw (h ▸ rfl)
      simp [hwk, Ne.symm hw]

/-- The same for a list whose writes leave out the cells that are set: the first write to a cell counts. -/
theorem Matrix.read_stampUnset_of_unique {ws : List CellWrite} {r c : Nat} {k : Module} (m : Matrix)
    (hin : ∀ w ∈ ws, w.1.1 < 57 ∧ w.1.2 < 57) (hk : ∀ w ∈ ws, w.1 = (r, c) → w.2 = k) :
    (m.stampUnset ws).read r c = if m.read r c = .unset ∧ ((r, c), k) ∈ ws then k else m.read r c := by
  induction ws generalizing m with
  | nil => simp [Matrix.stampUnset]
  | cons w ws ih =>
    obtain ⟨hwr, hwc⟩ := hin w (by simp)
    have hset := Matrix.read_set m hwr hwc w.2 r c
    have ih := fun m => ih m (fun x hx => hin x (by simp [hx])) fun x hx => hk x (by simp [hx])
    rw [Matrix.stampUnset_cons, ih]
    by_cases hw : w.1 = (r, c)
    · have hwk : w = ((r, c), k) := Prod.ext hw (hk w (by simp) hw)
      subst hwk
      split <;> simp_all
    · have hwk : ((r, c), k) ≠ w := fun h => hw (h ▸ rfl)
      rw [if_neg (Ne.symm hw)] at hset
      split <;> simp [hwk, hset]

section
variable {n : Nat} {ws : List CellWrite} {g : Nat → Nat → Option Module} (h : Paints n ws g)
include h

theorem Paints.lt (hn : n ≤ 57) : ∀ w ∈ ws, w.1.1 < 57 ∧ w.1.2 < 57 := fun w hw => by
  obtain ⟨⟨hr, hc⟩, -⟩ := (h w.1.1 w.1.2 w.2).1 hw
  omega

theorem Paints.unique (r c : Nat) : ∀ w ∈ ws, w.1 = (r, c) → w.2 = (g r c).getD .unset := by
  rintro ⟨⟨r, c⟩, k⟩ hw ⟨⟩
  simp [((h r c k).1 hw).2]

/-- What a list of writes leaves. -/
theorem Paints.read_stamp (hn : n ≤ 57) (m : Matrix) (r c : Nat) :
    (m.stamp ws).read r c = if r < n ∧ c < n then (g r c).getD (m.read r c) else m.read r c := by
  rw [Matrix.read_stamp_of_unique m (h.lt hn) (h.unique r c)]
  simp only [h r c]
  cases g r c <;> simp

theorem Paints.read_stampUnset (hn : n ≤ 57) (m : Matrix) (r c : Nat) :
    (m.stampUnset ws).read r c =
      if (r < n ∧ c < n) ∧ m.read r c = .unset then (g r c).getD .unset else m.read r c := by
  rw [Matrix.read_stampUnset_of_unique m (h.lt hn) (h.unique r c)]
  simp only [h r c]
  cases g r c <;> simp +contextual [and_comm]

end

/-! Finding the one entry of a list that passes a test. -/

theorem map_find?_eq_some_iff {α β : Type*} {q : α → Bool} {l : List α} (f : α → β)
    (hq : ∀ a ∈ l, ∀ b ∈ l, q a = true → q b = true → a = b) (k : β) :
    (l.find? q).map f = some k ↔ ∃ a ∈ l, q a = true ∧ f a = k := by
  rw [Option.map_eq_some_iff]
  constructor
  · rintro ⟨a, ha, rfl⟩
    exact ⟨a, List.mem_of_find?_eq_some ha, List.find?_some ha, rfl⟩
  · rintro ⟨a, ha, hqa, rfl⟩
    obtain ⟨b, hb⟩ := Option.isSome_iff_exists.1 (List.find?_isSome.2 ⟨a, ha, hqa⟩)
    rw [hb, hq a ha b (List.mem_of_find?_eq_some hb) hqa (List.find?_some hb)]
    exact ⟨b, rfl, rfl⟩

/-! The finder patterns (R152). -/

theorem mem_intRange {lo x : Int} {k : Nat} : x ∈ intRange lo k ↔ lo ≤ x ∧ x < lo + k := by
  have hmem : x ∈ intRange lo k ↔ ∃ i < k, lo + (i : Int) = x := by simp [intRange]
  rw [hmem]
  constructor
  · rintro ⟨i, hi, rfl⟩
    omega
  · intro h
    exact ⟨(x - lo).toNat, by omega, by omega⟩

theorem finderDarkAt_eq (r0 c0 r c : Nat) :
    finderDarkAt ((r : Int) - r0) ((c : Int) - c0) = finderDark r0 c0 r c := by
  rw [Bool.eq_iff_iff]
  simp only [finderDarkAt, finderDark, Bool.or_eq_true, Bool.and_eq_true, decide_eq_true_eq, beq_iff_eq]
  omega

theorem inFinder_eq_true {r0 c0 r c : Nat} :
    inFinder r0 c0 r c = true ↔ (r0 ≤ r + 1 ∧ r ≤ r0 + 7) ∧ c0 ≤ c + 1 ∧ c ≤ c0 + 7 := by
  simp [inFinder, and_assoc]

theorem mem_finderWritesAt {n r0 c0 r c : Nat} {k : Module} : ((r, c), k) ∈ finderWritesAt n r0 c0 ↔
    (r < n ∧ c < n) ∧ inFinder r0 c0 r c = true ∧ colour (finderDark r0 c0 r c) = k := by
  simp only [finderWritesAt, List.mem_flatMap, mem_intRange, inFinder_eq_true]
  constructor
  · rintro ⟨dr, hdr, dc, hdc, h⟩
    split at h
    · next hgrid =>
      obtain ⟨⟨rfl, rfl⟩, rfl⟩ : (r = ((r0 : Int) + dr).toNat ∧ c = ((c0 : Int) + dc).toNat) ∧
          k = colour (finderDarkAt dr dc) := by simpa using h
      rw [← finderDarkAt_eq]
      refine ⟨by omega, by omega, ?_⟩
      congr 2 <;> omega
    · cases h
  · rintro ⟨hgrid, hfinder, rfl⟩
    refine ⟨(r : Int) - r0, by omega, (c : Int) - c0, by omega, ?_⟩
    rw [if_pos (by omega), finderDarkAt_eq]
    simp

/-- The three regions have no cell in common. -/
theorem finderOrigins_unique {n : Nat} (hn : 21 ≤ n) (r c : Nat) : ∀ a ∈ finderOrigins n, ∀ b ∈ finderOrigins n,
    inFinder a.1 a.2 r c = true → inFinder b.1 b.2 r c = true → a = b := by
  simp [finderOrigins, inFinder_eq_true]
  omega

theorem finderWrites_eq {n : Nat} (hn : 7 ≤ n) :
    finderWrites n = (finderOrigins n).flatMap fun o => finderWritesAt n o.1 o.2 := by
  simp [finderWrites, finderOrigins, Nat.cast_sub hn]

theorem paints_finder {n : Nat} (hn : 21 ≤ n) : Paints n (finderWrites n) (finderCell n) := by
  intro r c k
  rw [finderCell, map_find?_eq_some_iff _ (finderOrigins_unique hn r c), finderWrites_eq (by omega)]
  simp only [List.mem_flatMap, mem_finderWritesAt]
  constructor
  · rintro ⟨o, ho, hgrid, hcell⟩
    exact ⟨hgrid, o, ho, hcell⟩
  · rintro ⟨hgrid, o, ho, hcell⟩
    exact ⟨o, ho, hgrid, hcell⟩

/-! The timing pattern (R153). -/

theorem paints_timing {n : Nat} (hn : 7 ≤ n) : Paints n (timingWrites n) timingCell := by
  intro r c k
  have hmem : ((r, c), k) ∈ timingWrites n ↔
      (r = 6 ∧ c < n ∧ colour (c % 2 == 0) = k) ∨ (c = 6 ∧ r < n ∧ colour (r % 2 == 0) = k) := by
    simp only [timingWrites, List.mem_flatMap, List.mem_range, List.mem_cons, List.not_mem_nil, or_false, Prod.mk.injEq]
    constructor
    · rintro ⟨i, hi, ⟨⟨rfl, rfl⟩, rfl⟩ | ⟨⟨rfl, rfl⟩, rfl⟩⟩
      · exact .inl ⟨rfl, hi, rfl⟩
      · exact .inr ⟨rfl, hi, rfl⟩
    · rintro (⟨rfl, hc, rfl⟩ | ⟨rfl, hr, rfl⟩)
      · exact ⟨c, hc, .inl ⟨⟨rfl, rfl⟩, rfl⟩⟩
      · exact ⟨r, hr, .inr ⟨⟨rfl, rfl⟩, rfl⟩⟩
  rw [hmem, timingCell]
  by_cases hr : r = 6
  · subst hr
    by_cases hc : c = 6
    · subst hc
      simp
    · simp [hc]
      omega
  · by_cases hc : c = 6
    · subst hc
      simp [hr]
      omega
    · simp [hr, hc]

/-! The alignment patterns (R150, R154). -/

/-- What the table says of a centre (a, b): even coordinates, the pattern inside the grid, and off the timing lines or
with its centre on one, clear of the corners. -/
def CentreFits (n : Nat) (a : Nat × Nat) : Prop :=
  (a.1 % 2 = 0 ∧ a.2 % 2 = 0) ∧ (a.1 + 7 ≤ n ∧ a.2 + 7 ≤ n) ∧
    ((16 ≤ a.1 ∧ 16 ≤ a.2) ∨ (a.1 = 6 ∧ 16 ≤ a.2 ∧ a.2 + 14 ≤ n) ∨ (a.2 = 6 ∧ 16 ≤ a.1 ∧ a.1 + 14 ≤ n))

theorem centreFits : ∀ v ≤ 10, ∀ a ∈ alignCentres v, CentreFits (moduleCount v) a := by
  unfold CentreFits
  decide

/-- No two patterns have a cell in common. -/
theorem alignCentres_apart : ∀ v ≤ 10, ∀ a ∈ alignCentres v, ∀ b ∈ alignCentres v,
    a = b ∨ 5 ≤ absDiff a.1 b.1 ∨ 5 ≤ absDiff a.2 b.2 := by decide

theorem absDiff_le {a b k : Nat} : absDiff a b ≤ k ↔ a ≤ b + k ∧ b ≤ a + k := by
  rw [absDiff]
  omega

/-- The cell is in the 5 × 5 pattern around the centre. -/
def nearCentre (a : Nat × Nat) (r c : Nat) : Bool := absDiff r a.1 ≤ 2 && absDiff c a.2 ≤ 2

theorem nearCentre_eq_true {a : Nat × Nat} {r c : Nat} :
    nearCentre a r c = true ↔ (r ≤ a.1 + 2 ∧ a.1 ≤ r + 2) ∧ c ≤ a.2 + 2 ∧ a.2 ≤ c + 2 := by
  simp [nearCentre, absDiff_le]

/-- The colour of the pattern's cell: dark but for the ring around the centre (R154). -/
def alignColour (a : Nat × Nat) (r c : Nat) : Module := colour (max (absDiff r a.1) (absDiff c a.2) != 1)

theorem alignCell_eq_some_iff {v : Nat} (hv : v ≤ 10) {r c : Nat} {k : Module} :
    alignCell v r c = some k ↔ ∃ a ∈ alignCentres v, nearCentre a r c = true ∧ alignColour a r c = k := by
  refine map_find?_eq_some_iff (q := fun a => nearCentre a r c) _ (fun a ha b hb hqa hqb => ?_) k
  rw [nearCentre_eq_true] at hqa hqb
  refine (alignCentres_apart v hv a ha b hb).resolve_right fun hfar => ?_
  simp only [absDiff] at hfar
  omega

theorem alignDarkAt_eq {a : Nat × Nat} {r c : Nat} (h : nearCentre a r c = true) :
    colour (alignDarkAt ((r : Int) - a.1) ((c : Int) - a.2)) = alignColour a r c := by
  rw [nearCentre_eq_true] at h
  rw [alignColour]
  congr 1
  rw [Bool.eq_iff_iff]
  simp only [alignDarkAt, absDiff, Bool.or_eq_true, beq_iff_eq, bne_iff_ne]
  omega

theorem paints_align {v : Nat} (hv : v ≤ 10) : Paints (moduleCount v) (alignWrites v) (alignCell v) := by
  intro r c k
  rw [alignCell_eq_some_iff hv]
  simp only [alignWrites, List.mem_flatMap, List.mem_map, mem_intRange, Prod.mk.injEq]
  constructor
  · rintro ⟨a, ha, dr, hdr, dc, hdc, ⟨rfl, rfl⟩, rfl⟩
    obtain ⟨-, hgrid, hplace⟩ := centreFits v hv a ha
    have hnear : nearCentre a ((a.1 : Int) + dr).toNat ((a.2 : Int) + dc).toNat = true :=
      nearCentre_eq_true.2 (by omega)
    refine ⟨by omega, a, ha, hnear, ?_⟩
    rw [← alignDarkAt_eq hnear]
    congr 2 <;> omega
  · rintro ⟨-, a, ha, hnear, rfl⟩
    have hcell := nearCentre_eq_true.1 hnear
    refine ⟨a, ha, (r : Int) - a.1, by omega, (c : Int) - a.2, by omega, ⟨by omega, by omega⟩, alignDarkAt_eq hnear⟩

/-! The reserved cells (R155). -/

/-- The cells of the two copies of the format word (R191). -/
theorem mem_formatCells {n r c : Nat} (hn : 21 ≤ n) : (r, c) ∈ formatCells n ↔
    (c = 8 ∧ r ≠ 6 ∧ (r ≤ 8 ∨ n ≤ r + 7 ∧ r < n)) ∨ (r = 8 ∧ c ≠ 6 ∧ (c ≤ 7 ∨ n ≤ c + 8 ∧ c < n)) := by
  simp only [formatCells, List.mem_flatMap, List.mem_range, List.mem_cons, List.not_mem_nil, or_false, copyA, copyB]
  constructor
  · rintro ⟨i, hi, h | h⟩
    · split_ifs at h <;> simp only [Prod.mk.injEq] at h <;> omega
    · split_ifs at h <;> simp only [Prod.mk.injEq] at h <;> omega
  · rintro (⟨rfl, hr6, hr⟩ | ⟨rfl, hc6, hc⟩)
    · refine ⟨if r < 6 then r else if r ≤ 8 then r - 1 else r + 15 - n, ?_, .inl ?_⟩
      · split_ifs <;> omega
      · split_ifs <;> simp <;> omega
    · refine ⟨if n ≤ c + 8 then n - 1 - c else if c = 7 then 8 else 14 - c, ?_, .inr ?_⟩
      · split_ifs <;> omega
      · split_ifs <;> simp <;> omega

/-- The cells of the two version blocks (R193). -/
theorem mem_versionCells {v r c : Nat} : (r, c) ∈ versionCells v ↔ 7 ≤ v ∧
    ((r < 6 ∧ moduleCount v ≤ c + 11 ∧ c + 8 < moduleCount v) ∨
      (c < 6 ∧ moduleCount v ≤ r + 11 ∧ r + 8 < moduleCount v)) := by
  have hn : 17 ≤ moduleCount v := Nat.le_add_left _ _
  rw [versionCells]
  split
  · next hv =>
    simp only [List.mem_flatMap, List.mem_range, List.mem_cons, List.not_mem_nil, or_false, blockA, blockB,
      Prod.mk.injEq, hv, true_and]
    constructor
    · rintro ⟨i, hi, h | h⟩ <;> omega
    · rintro (h | h)
      · exact ⟨3 * r + (c + 11 - moduleCount v), by omega, .inl (by omega)⟩
      · exact ⟨3 * c + (r + 11 - moduleCount v), by omega, .inr (by omega)⟩
  · next hv => simp [hv]

theorem isReserved_eq_true {v r c : Nat} : isReserved v r c = true ↔
    (r, c) = darkModule (moduleCount v) ∨ (r, c) ∈ formatCells (moduleCount v) ∨ (r, c) ∈ versionCells v := by
  simp [isReserved, or_assoc]

theorem moduleCount_ge {v : Nat} (hv : 1 ≤ v) : 21 ≤ moduleCount v := by
  rw [moduleCount]
  omega

theorem moduleCount_le {v : Nat} (hv : v ≤ 10) : moduleCount v ≤ 57 := by
  rw [moduleCount]
  omega

/-- The dark module, the format cells, the version cells. -/
theorem isReserved_iff {v r c : Nat} (hv : 1 ≤ v) : isReserved v r c = true ↔
    (r + 8 = moduleCount v ∧ c = 8) ∨
    ((c = 8 ∧ r ≠ 6 ∧ (r ≤ 8 ∨ moduleCount v ≤ r + 7 ∧ r < moduleCount v)) ∨
      (r = 8 ∧ c ≠ 6 ∧ (c ≤ 7 ∨ moduleCount v ≤ c + 8 ∧ c < moduleCount v))) ∨
    (7 ≤ v ∧ ((r < 6 ∧ moduleCount v ≤ c + 11 ∧ c + 8 < moduleCount v) ∨
      (c < 6 ∧ moduleCount v ≤ r + 11 ∧ r + 8 < moduleCount v))) := by
  have hn := moduleCount_ge hv
  rw [isReserved_eq_true, mem_formatCells hn, mem_versionCells, darkModule, Prod.mk.injEq]
  omega

theorem isReserved_lt {v r c : Nat} (hv : 1 ≤ v) (h : isReserved v r c = true) :
    r < moduleCount v ∧ c < moduleCount v := by
  have hn := moduleCount_ge hv
  rw [isReserved_iff hv] at h
  omega

/-- What the reserved cells get before placement. -/
def reservedCell (v r c : Nat) : Option Module := if isReserved v r c then some .light else none

theorem paints_reserved {v : Nat} (hv : 1 ≤ v) : Paints (moduleCount v) (reservedWrites v) (reservedCell v) := by
  intro r c k
  have hmem : ((r, c), k) ∈ reservedWrites v ↔ isReserved v r c = true ∧ .light = k := by
    rw [isReserved_eq_true]
    simp [reservedWrites, or_left_comm, or_and_right, eq_comm]
  rw [hmem, reservedCell]
  by_cases h : isReserved v r c = true
  · simp [h, isReserved_lt hv h]
  · simp [h]

/-! Steps 1 to 4a (R151 to R155). -/

theorem colour_ne_unset (b : Bool) : colour b ≠ .unset := by cases b <;> simp [colour]

theorem finderCell_ne_unset (n r c : Nat) : finderCell n r c ≠ some .unset := by
  rw [finderCell, ne_eq, Option.map_eq_some_iff]
  rintro ⟨o, -, h⟩
  exact colour_ne_unset _ h

theorem patternCell_eq (v r c : Nat) : patternCell v r c =
    (reservedCell v r c).getD ((alignCell v r c).getD ((finderCell (moduleCount v) r c).getD
      ((timingCell r c).getD .unset))) := by
  rw [patternCell, reservedCell]
  cases alignCell v r c <;> cases finderCell (moduleCount v) r c <;> split <;> rfl

theorem read_stampPatterns {v : Nat} (h1 : 1 ≤ v) (h10 : v ≤ 10) (r c : Nat) :
    (stampPatterns v).read r c = if r < moduleCount v ∧ c < moduleCount v then patternCell v r c else .unset := by
  have hlo := moduleCount_ge h1
  have hhi := moduleCount_le h10
  rw [stampPatterns, (paints_reserved h1).read_stamp hhi, (paints_align h10).read_stamp hhi,
    (paints_timing (by omega)).read_stampUnset hhi, (paints_finder hlo).read_stamp hhi, Matrix.read_blank]
  by_cases hgrid : r < moduleCount v ∧ c < moduleCount v
  · simp only [hgrid, and_self, if_true, true_and, patternCell_eq]
    have hfinder := finderCell_ne_unset (moduleCount v) r c
    cases hf : finderCell (moduleCount v) r c with
    | none => simp
    | some k =>
      have hk : k ≠ .unset := fun h => hfinder (h ▸ hf)
      simp [hk]
  · simp [hgrid]

end Sys2Proof.Machine

/-! SUPPORT. BUILD's traversal (R156, R158): the loops with row, column and direction visit the cells of `zigzag`, and each
cell that is still unset gets the bit of its number; so BUILD leaves what its steps leave (R159). -/
namespace Sys2Proof.Machine

/-! Placement at the cells of a list. -/

/-- `if MemRead(MAT, p) = unset: place(p)` on the matrix and the bit counter (R156, R158). -/
def placeAt (cw : Memory) (cwlen m : Nat) (x : Matrix × Nat) (p : Nat × Nat) : Matrix × Nat :=
  if x.1.read p.1 p.2 = .unset then (x.1.set p.1 p.2 (placedCell cw cwlen m x.2 p.1 p.2), x.2 + 1) else x

/-- The cells one after another. -/
def placeAll (cw : Memory) (cwlen m : Nat) (x : Matrix × Nat) (ps : List (Nat × Nat)) : Matrix × Nat :=
  ps.foldl (placeAt cw cwlen m) x

variable {cw : Memory} {cwlen m n : Nat}

@[simp] theorem placeAll_cons (x : Matrix × Nat) (p : Nat × Nat) (ps : List (Nat × Nat)) :
    placeAll cw cwlen m x (p :: ps) = placeAll cw cwlen m (placeAt cw cwlen m x p) ps := rfl

@[simp] theorem placeAll_append (x : Matrix × Nat) (ps qs : List (Nat × Nat)) :
    placeAll cw cwlen m x (ps ++ qs) = placeAll cw cwlen m (placeAll cw cwlen m x ps) qs := List.foldl_append

/-- The cells of the list that were unset get the bits in their order; every other cell keeps its colour. -/
theorem read_placeAll {ps : List (Nat × Nat)} (hps : ps.Nodup) (hin : ∀ p ∈ ps, p.1 < 57 ∧ p.2 < 57)
    (x : Matrix × Nat) (r c : Nat) :
    (placeAll cw cwlen m x ps).1.read r c =
      ((ps.filter fun p => x.1.read p.1 p.2 == .unset).idxOf? (r, c)).elim (x.1.read r c)
        fun i => placedCell cw cwlen m (x.2 + i) r c := by
  induction ps generalizing x with
  | nil => rfl
  | cons p ps ih =>
    obtain ⟨hp, hps⟩ := List.nodup_cons.1 hps
    have ih := ih hps fun q hq => hin q (List.mem_cons_of_mem _ hq)
    obtain ⟨hpr, hpc⟩ := hin p List.mem_cons_self
    rw [placeAll_cons, ih, placeAt]
    by_cases hx : x.1.read p.1 p.2 = .unset
    · have hset := Matrix.read_set x.1 hpr hpc (placedCell cw cwlen m x.2 p.1 p.2)
      have hfilter : (ps.filter fun q => (x.1.set p.1 p.2 (placedCell cw cwlen m x.2 p.1 p.2)).read q.1 q.2 == .unset) =
          ps.filter fun q => x.1.read q.1 q.2 == .unset :=
        List.filter_congr fun q hq => by
          have hne : (q.1, q.2) ≠ (p.1, p.2) := fun h => hp ((show q = p from h) ▸ hq)
          rw [hset, if_neg hne]
      rw [if_pos hx, hfilter, List.filter_cons_of_pos (by simpa using hx), List.idxOf?_cons, hset]
      by_cases h : p = (r, c)
      · subst h
        have hnone : (ps.filter fun q => x.1.read q.1 q.2 == .unset).idxOf? (r, c) = none :=
          List.idxOf?_eq_none_iff.2 fun h => hp (List.mem_filter.1 h).1
        simp [hnone]
      · have h' : (r, c) ≠ (p.1, p.2) := fun he => h he.symm
        rw [if_neg h', if_neg (by simpa using h)]
        cases (ps.filter fun q => x.1.read q.1 q.2 == .unset).idxOf? (r, c) with
        | none => rfl
        | some i => simp [Nat.add_assoc, Nat.add_comm 1]
    · rw [if_neg hx, List.filter_cons_of_neg (by simpa using hx)]

/-! The loops of the traversal. -/

/-- The traversal's variables around a matrix and a bit counter. -/
def walkAt (x : Matrix × Nat) (row dir col : Int) : Walk := ⟨x.1, row, dir, col, x.2⟩

theorem place_walkAt (x : Matrix × Nat) (r : Nat) (dir col c : Int) :
    (walkAt x r dir col).place cw cwlen m c = walkAt (placeAt cw cwlen m x (r, c.toNat)) r dir col := by
  by_cases h : x.1.read r c.toNat = .unset <;> simp [Walk.place, walkAt, placeAt, h]

/-- One row of a pair: its two cells, then the turn at the edge or the next row. -/
theorem pair_succ (fuel : Nat) (x : Matrix × Nat) (r c : Nat) (dir : Int) :
    Walk.pair cw cwlen m n (fuel + 1) (walkAt x r dir c) =
      if (r : Int) + dir < 0 ∨ (n : Int) ≤ r + dir then
        walkAt (placeAll cw cwlen m x [(r, c), (r, c - 1)]) r (-dir) c
      else Walk.pair cw cwlen m n fuel (walkAt (placeAll cw cwlen m x [(r, c), (r, c - 1)]) (r + dir) dir c) := by
  have hcells : ((walkAt x r dir c).place cw cwlen m c).place cw cwlen m ((c : Int) - 1) =
      walkAt (placeAll cw cwlen m x [(r, c), (r, c - 1)]) r dir c := by
    have hleft : ((c : Int) - 1).toNat = c - 1 := by omega
    rw [place_walkAt, place_walkAt, Int.toNat_natCast, hleft]
    rfl
  rw [Walk.pair]
  exact congrArg (fun w : Walk => if w.row + w.dir < 0 ∨ (n : Int) ≤ w.row + w.dir then { w with dir := -w.dir }
    else Walk.pair cw cwlen m n fuel { w with row := w.row + w.dir }) hcells

theorem pairCells_cons (r : Nat) (rs : List Nat) (c : Nat) : 
    pairCells (r :: rs) c = [(r, c), (r, c - 1)] ++ pairCells rs c := rfl

/-- A pair walked downward from row n - k. -/
theorem pair_down {k fuel : Nat} (hk : 1 ≤ k) (hkn : k ≤ n) (hfuel : k ≤ fuel) (x : Matrix × Nat) (c : Nat) :
    Walk.pair cw cwlen m n fuel (walkAt x (n - k : Nat) 1 c) =
      walkAt (placeAll cw cwlen m x (pairCells (List.range' (n - k) k) c)) (n - 1 : Nat) (-1) c := by
  induction k generalizing fuel x with
  | zero => cases hk
  | succ k ih =>
    obtain ⟨fuel, rfl⟩ := Nat.exists_eq_add_of_le' (Nat.one_le_of_lt hfuel)
    rw [pair_succ, List.range'_succ, pairCells_cons, placeAll_append]
    cases k with
    | zero =>
      rw [if_pos (by omega)]
      rfl
    | succ k =>
      have hrow : ((n - (k + 1 + 1) : Nat) : Int) + 1 = (n - (k + 1) : Nat) := by omega
      have hstart : n - (k + 1 + 1) + 1 = n - (k + 1) := by omega
      rw [if_neg (by omega), hrow, ih (by omega) (by omega) (by omega), hstart]

/-- A pair walked upward from row k. -/
theorem pair_up {k fuel : Nat} (hkn : k < n) (hfuel : k < fuel) (x : Matrix × Nat) (c : Nat) :
    Walk.pair cw cwlen m n fuel (walkAt x k (-1) c) =
      walkAt (placeAll cw cwlen m x (pairCells (List.range (k + 1)).reverse c)) 0 1 c := by
  induction k generalizing fuel x with
  | zero =>
    obtain ⟨fuel, rfl⟩ := Nat.exists_eq_add_of_le' (Nat.one_le_of_lt hfuel)
    rw [pair_succ, if_pos (by omega)]
    rfl
  | succ k ih =>
    obtain ⟨fuel, rfl⟩ := Nat.exists_eq_add_of_le' (Nat.one_le_of_lt hfuel)
    have hrow : ((k + 1 : Nat) : Int) + -1 = k := by omega
    rw [pair_succ, if_neg (by omega), hrow, ih (by omega) (by omega), List.range_succ (n := k + 1), List.reverse_append,
      List.reverse_singleton, List.singleton_append, pairCells_cons, placeAll_append]

/-- The row from which pair number k is walked: the bottom row and the top row in turn. -/
def startRow (n k : Nat) : Nat := if k % 2 = 0 then n - 1 else 0

/-- The direction in which pair number k is walked. -/
def startDir (k : Nat) : Int := if k % 2 = 0 then -1 else 1

/-- A whole pair; the walk is left where the next one starts. -/
theorem pair_walkAt (hn : 1 ≤ n) (x : Matrix × Nat) (k c : Nat) :
    Walk.pair cw cwlen m n n (walkAt x (startRow n k) (startDir k) c) =
      walkAt (placeAll cw cwlen m x (pairCells (pairRows n k) c)) (startRow n (k + 1)) (startDir (k + 1)) c := by
  rcases Nat.mod_two_eq_zero_or_one k with hk | hk
  · have hk' : (k + 1) % 2 = 1 := by omega
    have hup := pair_up (cw := cw) (cwlen := cwlen) (m := m) (n := n) (k := n - 1) (fuel := n) (by omega) (by omega) x c
    rw [Nat.sub_add_cancel hn] at hup
    simpa [startRow, startDir, pairRows, hk, hk'] using hup
  · have hk' : (k + 1) % 2 = 0 := by omega
    have hdown := pair_down (cw := cw) (cwlen := cwlen) (m := m) (n := n) (k := n) (fuel := n) hn le_rfl le_rfl x c
    rw [Nat.sub_self, ← List.range_eq_range'] at hdown
    simpa [startRow, startDir, pairRows, hk, hk'] using hdown

/-- The right column of pair number k (R156). -/
def pairColumn (n k : Nat) : Nat := if n - 1 - 2 * k ≤ 6 then n - 2 - 2 * k else n - 1 - 2 * k

/-- The cells of pair number k in their order. -/
def cellsOfPair (n k : Nat) : List (Nat × Nat) := pairCells (pairRows n k) (pairColumn n k)

theorem zigzag_eq_flatMap (n : Nat) : zigzag n = (List.range' 0 ((n - 1) / 2)).flatMap (cellsOfPair n) := by
  have hcolumns : (pairColumns n).zipIdx = (List.range' 0 ((n - 1) / 2)).map fun k => (pairColumn n k, k) :=
    List.ext_getElem (by simp [pairColumns]) fun k _ _ => by simp [pairColumns, pairColumn]
  rw [zigzag_eq, hcolumns, List.flatMap_map]
  rfl

/-- The column with which the loop reaches pair number k, before it jumps over column 6. -/
def loopColumn (n k : Nat) : Int := if (n : Int) - 1 - 2 * k < 6 then n - 2 - 2 * k else n - 1 - 2 * k

theorem columns_of_nonpos {col : Int} (hcol : col ≤ 0) (fuel : Nat) (x : Matrix × Nat) (row dir : Int) :
    Walk.columns cw cwlen m n fuel (walkAt x row dir col) = walkAt x row dir col := by
  cases fuel with
  | zero => rfl
  | succ fuel =>
    rw [Walk.columns]
    exact if_neg (Int.not_lt.2 hcol)

/-- One round of the loop over the pairs: the jump over column 6, the pair, two columns to the left. -/
theorem columns_succ {x y : Matrix × Nat} {row dir col row' dir' col' c : Int} (hcol : 0 < col)
    (hc : (if col = 6 then 5 else col) = c)
    (hpair : Walk.pair cw cwlen m n n (walkAt x row dir c) = walkAt y row' dir' col') (fuel : Nat) :
    Walk.columns cw cwlen m n (fuel + 1) (walkAt x row dir col) =
      Walk.columns cw cwlen m n fuel (walkAt y row' dir' (col' - 2)) := by
  have hjump : (if col = 6 then walkAt x row dir 5 else walkAt x row dir col) = walkAt x row dir c := by
    rw [← hc]
    split <;> rfl
  rw [Walk.columns]
  refine (if_pos hcol).trans ?_
  exact congrArg (fun w : Walk => Walk.columns cw cwlen m n fuel { w with col := w.col - 2 })
    ((congrArg (Walk.pair cw cwlen m n n) hjump).trans hpair)

/-- The loop over the pairs from number k on, of which there are j. -/
theorem columns_walkAt {j k fuel : Nat} (hn : 7 ≤ n) (hodd : n % 2 = 1) (hk : k + j = (n - 1) / 2) (hfuel : j ≤ fuel)
    (x : Matrix × Nat) :
    (Walk.columns cw cwlen m n fuel (walkAt x (startRow n k) (startDir k) (loopColumn n k))).mat =
      (placeAll cw cwlen m x ((List.range' k j).flatMap (cellsOfPair n))).1 := by
  induction j generalizing k fuel x with
  | zero =>
    have hcol : loopColumn n k ≤ 0 := by
      rw [loopColumn]
      split <;> omega
    rw [columns_of_nonpos hcol]
    rfl
  | succ j ih =>
    obtain ⟨fuel, rfl⟩ := Nat.exists_eq_add_of_le' (Nat.one_le_of_lt hfuel)
    have hcol : 0 < loopColumn n k := by
      rw [loopColumn]
      split <;> omega
    have hjump : (if loopColumn n k = 6 then (5 : Int) else loopColumn n k) = pairColumn n k := by
      rw [loopColumn, pairColumn]
      split_ifs <;> omega
    have hnext : (pairColumn n k : Int) - 2 = loopColumn n (k + 1) := by
      rw [loopColumn, pairColumn]
      split_ifs <;> omega
    rw [columns_succ hcol hjump (pair_walkAt (by omega) x k (pairColumn n k)), hnext, ih (by omega) (by omega),
      List.range'_succ, List.flatMap_cons, placeAll_append, cellsOfPair]

/-- The traversal visits the cells of `zigzag` (R156). -/
theorem mat_placeCodewords (hn : 7 ≤ n) (hodd : n % 2 = 1) (mat : Matrix) :
    (placeCodewords cw cwlen m n mat).mat = (placeAll cw cwlen m (mat, 0) (zigzag n)).1 := by
  have hrow : (n : Int) - 1 = (startRow n 0 : Nat) := by
    rw [startRow, if_pos rfl]
    omega
  have hcol : (n : Int) - 1 = loopColumn n 0 := by
    rw [loopColumn]
    split <;> omega
  have hloop := columns_walkAt (cw := cw) (cwlen := cwlen) (m := m) (k := 0) (fuel := n) hn hodd (Nat.zero_add _)
    (by omega) (mat, 0)
  rw [zigzag_eq_flatMap, ← hloop, ← hrow, ← hcol]
  rfl

/-! BUILD (R159). -/

variable {v r c : Nat}

/-- BUILD's steps read from the last to the first: the dark module, the data cells, the patterns. -/
theorem builtCell_eq : builtCell v (dataCells v) cw cwlen m r c =
    if (r, c) = darkModule (moduleCount v) then .dark
    else ((dataCells v).idxOf? (r, c)).elim (patternCell v r c) fun i => placedCell cw cwlen m i r c := by
  rw [builtCell]
  have hnone : patternCell v r c ≠ .unset → (dataCells v).idxOf? (r, c) = none := fun hp =>
    List.idxOf?_eq_none_iff.2 fun h => hp (patternCell_of_mem_dataCells h)
  cases hp : patternCell v r c with
  | light => simp [hnone (by simp [hp])]
  | dark => simp [hnone (by simp [hp])]
  | unset => cases (dataCells v).idxOf? (r, c) <;> rfl

theorem idxOf?_dataCells_eq_none (h : ¬(r < moduleCount v ∧ c < moduleCount v)) : (dataCells v).idxOf? (r, c) = none :=
  List.idxOf?_eq_none_iff.2 fun hp => h (dataCells_bounds hp)

theorem dataCells_eq_filter_stampPatterns (h1 : 1 ≤ v) (h10 : v ≤ 10) :
    ((zigzag (moduleCount v)).filter fun p => (stampPatterns v).read p.1 p.2 == .unset) = dataCells v :=
  List.filter_congr fun p hp => by rw [read_stampPatterns h1 h10, if_pos (zigzag_bounds hp)]

/-- Step 7 writes the dark module, over what the traversal left (R159). -/
theorem read_buildBySteps (h1 : 1 ≤ v) (h10 : v ≤ 10) (cw : Memory) (cwlen m r c : Nat) :
    (buildBySteps v cw cwlen m).read r c = if (r, c) = darkModule (moduleCount v) then .dark
      else (placeAll cw cwlen m (stampPatterns v, 0) (zigzag (moduleCount v))).1.read r c := by
  have hlo := moduleCount_ge h1
  have hhi := moduleCount_le h10
  have hodd : moduleCount v % 2 = 1 := by
    rw [moduleCount]
    omega
  rw [← mat_placeCodewords (by omega) hodd]
  exact Matrix.read_set _ (by omega) (by omega) _ r c

/-- The cell-by-cell form of BUILD is what its steps leave (R151 to R159). -/
theorem builtMatrix_eq_buildBySteps (h1 : 1 ≤ v) (h10 : v ≤ 10) (cw : Memory) (cwlen m : Nat) :
    builtMatrix v cw cwlen m = buildBySteps v cw cwlen m := by
  have hhi := moduleCount_le h10
  have hin : ∀ p ∈ zigzag (moduleCount v), p.1 < 57 ∧ p.2 < 57 := fun p hp => by
    have := zigzag_bounds hp
    omega
  refine Matrix.ext_read fun r c hr hc => ?_
  rw [builtMatrix, Matrix.read_tabulate, if_pos ⟨hr, hc⟩, builtCell_eq, read_buildBySteps h1 h10,
    read_placeAll (nodup_zigzag _) hin, dataCells_eq_filter_stampPatterns h1 h10, read_stampPatterns h1 h10]
  simp only [Nat.zero_add]
  by_cases hgrid : r < moduleCount v ∧ c < moduleCount v
  · rw [if_pos hgrid, if_pos hgrid]
  · have hdark : (r, c) ≠ darkModule (moduleCount v) := fun h => hgrid (isReserved_lt h1 (isReserved_eq_true.2 (.inl h)))
    rw [if_neg hgrid, if_neg hdark, idxOf?_dataCells_eq_none hgrid, Option.elim_none, if_neg hgrid]

theorem encode_build (m : Nat) : encode (.build m) = word (0x44000000 + m) :=
  encode_eq_word (by simp only [opcodeOf, operandBits]; omega)

/-- Settles O48: the patterns and the traversal of the steps give each cell what the last write to it gives. -/
theorem buildRunsItsSteps : Obligations.BuildRunsItsSteps := by
  intro s m he hv hm
  refine ⟨decode_of_encode_eq (encode_build m) (decide_eq_true hm), fun h7 => ?_, fun h7 => ?_⟩
  · exact ⟨_, exec_build_of_running he h7, rfl, builtMatrix_eq_buildBySteps hv.1 hv.2 s.cw s.cwlen.toNat m,
      Nat.mod_eq_of_lt (Nat.lt_succ_of_le h7), rfl⟩
  · rw [← encode_build]
    exact exec_of_not_inRange (execBuild.eq_1 m s) he (decide_eq_false (Nat.not_le.2 h7))

end Sys2Proof.Machine

/-! SUPPORT. The cells of the built symbol (R160 to R162): every cell of the grid is set, the fixed patterns do not depend on
CW or the mask, and the data cells are what a set of disjoint blocks and the timing lines leave. -/
namespace Sys2Proof.Machine

variable {cw : Memory} {cwlen m v r c : Nat} {k : Module}

/-! Where the patterns leave a cell unset (R156, R160). -/

theorem patternCell_of_isReserved (h : isReserved v r c = true) : patternCell v r c = .light := if_pos h

theorem alignCell_ne_unset (v r c : Nat) : alignCell v r c ≠ some .unset := by
  rw [alignCell, ne_eq, Option.map_eq_some_iff]
  rintro ⟨a, -, h⟩
  exact colour_ne_unset _ h

theorem timingCell_eq_none : timingCell r c = none ↔ r ≠ 6 ∧ c ≠ 6 := by
  rw [timingCell]
  split_ifs <;> simp [*]

theorem timingCell_ne_unset (r c : Nat) : timingCell r c ≠ some .unset := by
  rw [timingCell]
  split_ifs <;> simp [colour_ne_unset]

theorem getD_eq_unset {o : Option Module} (ho : o ≠ some .unset) (k : Module) :
    o.getD k = .unset ↔ o = none ∧ k = .unset := by
  cases o with
  | none => simp
  | some j => simpa using ho

/-- Steps 2 to 4a leave a cell unset exactly when none of them writes it. -/
theorem patternCell_eq_unset : patternCell v r c = .unset ↔
    isReserved v r c = false ∧ alignCell v r c = none ∧ finderCell (moduleCount v) r c = none ∧ r ≠ 6 ∧ c ≠ 6 := by
  have hreserved : reservedCell v r c = none ↔ isReserved v r c = false := by simp [reservedCell]
  have hlight : reservedCell v r c ≠ some .unset := by simp [reservedCell]
  rw [patternCell_eq, getD_eq_unset hlight, getD_eq_unset (alignCell_ne_unset v r c),
    getD_eq_unset (finderCell_ne_unset _ r c), getD_eq_unset (timingCell_ne_unset r c), timingCell_eq_none, hreserved]
  simp

theorem off_timing_of_patternCell (h : patternCell v r c = .unset) : r ≠ 6 ∧ c ≠ 6 := by
  obtain ⟨-, -, -, hlines⟩ := patternCell_eq_unset.1 h
  exact hlines

/-- The traversal visits every cell but those of column 6 (R156). -/
theorem mem_zigzag {n : Nat} (hn : 7 ≤ n) (hodd : n % 2 = 1) : (r, c) ∈ zigzag n ↔ (r < n ∧ c < n) ∧ c ≠ 6 := by
  simp only [zigzag_eq_flatMap, List.mem_flatMap, List.mem_range'_1, cellsOfPair, mem_pairCells, mem_pairRows, pairColumn]
  constructor
  · rintro ⟨k, hk, hr, hc⟩
    split at hc <;> omega
  · rintro ⟨⟨hr, hc⟩, hc6⟩
    by_cases hside : c < 6
    · refine ⟨(n - 2 - c) / 2, by omega, hr, ?_⟩
      rw [if_pos (by omega)]
      omega
    · refine ⟨(n - 1 - c) / 2, by omega, hr, ?_⟩
      rw [if_neg (by omega)]
      omega

theorem moduleCount_odd (v : Nat) : moduleCount v % 2 = 1 := by
  rw [moduleCount]
  omega

/-- Column 6 holds a timing cell where nothing else is, so the traversal misses no unset cell. -/
theorem mem_dataCells (hv : 1 ≤ v) :
    (r, c) ∈ dataCells v ↔ (r < moduleCount v ∧ c < moduleCount v) ∧ patternCell v r c = .unset := by
  have hn := moduleCount_ge hv
  rw [dataCells, List.mem_filter, mem_zigzag (by omega) (moduleCount_odd v), beq_iff_eq, and_assoc]
  exact and_congr_right fun _ => and_iff_right_of_imp fun hunset => (off_timing_of_patternCell hunset).2

/-- Inside the grid BUILD leaves no cell unset. -/
theorem builtCell_ne_unset (hv : 1 ≤ v) (hgrid : r < moduleCount v ∧ c < moduleCount v) :
    builtCell v (dataCells v) cw cwlen m r c ≠ .unset := by
  rw [builtCell_eq]
  split
  · simp
  · cases hi : (dataCells v).idxOf? (r, c) with
    | some i => exact colour_ne_unset _
    | none => exact fun h => List.idxOf?_eq_none_iff.1 hi ((mem_dataCells hv).2 ⟨hgrid, h⟩)

/-- Settles O49: inside, a step sets the cell; outside, none writes it. -/
theorem buildSetsEveryCellOfTheSymbol : Obligations.BuildSetsEveryCellOfTheSymbol := by
  intro s m he hv hm
  refine ⟨_, exec_build_of_running he hm, fun r c => ?_⟩
  show (builtMatrix s.version.toNat s.cw s.cwlen.toNat m).read r c = .unset ↔
    ¬(r < moduleCount s.version.toNat ∧ c < moduleCount s.version.toNat)
  by_cases hgrid : r < moduleCount s.version.toNat ∧ c < moduleCount s.version.toNat
  · rw [read_builtMatrix hv.2 hgrid.1 hgrid.2]
    simp [builtCell_ne_unset hv.1 hgrid, hgrid]
  · rw [builtMatrix, Matrix.read_tabulate, if_neg hgrid, ite_self]
    exact iff_of_true rfl hgrid

/-! The fixed patterns (R162). -/

/-- A cell that a pattern has set keeps its colour, but for the dark module. -/
theorem builtCell_of_patternCell (hk : k ≠ .unset) (hp : patternCell v r c = k)
    (hd : (r, c) ≠ darkModule (moduleCount v)) : builtCell v (dataCells v) cw cwlen m r c = k := by
  have hnone : (dataCells v).idxOf? (r, c) = none :=
    List.idxOf?_eq_none_iff.2 fun h => hk (hp ▸ patternCell_of_mem_dataCells h)
  rw [builtCell_eq, if_neg hd, hnone, Option.elim_none, hp]

/-- The regions of the finder patterns with their separators are 8 × 8 (R152). -/
theorem finderCell_eq_none_iff {n : Nat} (hn : 21 ≤ n) (hgrid : r < n ∧ c < n) : finderCell n r c = none ↔
    ¬(r ≤ 7 ∧ c ≤ 7) ∧ ¬(n ≤ r + 8 ∧ c ≤ 7) ∧ ¬(r ≤ 7 ∧ n ≤ c + 8) := by
  rw [finderCell, Option.map_eq_none_iff, List.find?_eq_none]
  simp [finderOrigins, inFinder_eq_true]
  omega

theorem exists_centre_of_alignCell (hv : v ≤ 10) (h : alignCell v r c = some k) : ∃ a,
    CentreFits (moduleCount v) a ∧ ((r ≤ a.1 + 2 ∧ a.1 ≤ r + 2) ∧ c ≤ a.2 + 2 ∧ a.2 ≤ c + 2) ∧ alignColour a r c = k := by
  obtain ⟨a, ha, hnear, hk⟩ := (alignCell_eq_some_iff hv).1 h
  exact ⟨a, centreFits v hv a ha, nearCentre_eq_true.1 hnear, hk⟩

/-- No later step writes into the corners (R162(a)). -/
theorem patternCell_of_finderCell (h1 : 1 ≤ v) (h10 : v ≤ 10) (hgrid : r < moduleCount v ∧ c < moduleCount v)
    (hf : finderCell (moduleCount v) r c = some k) : isReserved v r c = false ∧ patternCell v r c = k := by
  have hn := moduleCount_ge h1
  have hcorner : ¬finderCell (moduleCount v) r c = none := by simp [hf]
  rw [finderCell_eq_none_iff hn hgrid] at hcorner
  have hreserved : isReserved v r c = false := by
    rw [← Bool.not_eq_true, isReserved_iff h1]
    omega
  have halign : alignCell v r c = none := Option.eq_none_iff_forall_ne_some.2 fun j hj => by
    obtain ⟨a, ⟨-, hin, hplace⟩, hnear, -⟩ := exists_centre_of_alignCell h10 hj
    omega
  refine ⟨hreserved, ?_⟩
  rw [patternCell_eq, reservedCell, hreserved, halign, hf]
  rfl

/-- An alignment pattern that lies across a timing line has the line's colours there (R153, R154). -/
theorem timingCell_of_alignCell (h10 : v ≤ 10) (ha : alignCell v r c = some k) (hline : r = 6 ∨ c = 6) :
    timingCell r c = some k := by
  obtain ⟨a, ⟨heven, hin, hplace⟩, hnear, rfl⟩ := exists_centre_of_alignCell h10 ha
  rw [alignColour, timingCell]
  simp only [absDiff]
  obtain rfl | rfl := hline
  · rw [if_pos rfl]
    congr 2
    rw [Bool.eq_iff_iff, beq_iff_eq, bne_iff_ne]
    omega
  · rw [if_neg (by omega), if_pos rfl]
    congr 2
    rw [Bool.eq_iff_iff, beq_iff_eq, bne_iff_ne]
    omega

/-- Between the finder patterns the timing lines have the colours of step 3 (R162(c)). -/
theorem patternCell_of_timingCell (h1 : 1 ≤ v) (h10 : v ≤ 10)
    (hline : (r = 6 ∧ 8 ≤ c ∧ c + 9 ≤ moduleCount v) ∨ (c = 6 ∧ 8 ≤ r ∧ r + 9 ≤ moduleCount v))
    (ht : timingCell r c = some k) : isReserved v r c = false ∧ patternCell v r c = k := by
  have hn := moduleCount_ge h1
  have hreserved : isReserved v r c = false := by
    rw [← Bool.not_eq_true, isReserved_iff h1]
    omega
  have hfinder : finderCell (moduleCount v) r c = none := (finderCell_eq_none_iff hn (by omega)).2 (by omega)
  refine ⟨hreserved, ?_⟩
  rw [patternCell_eq, reservedCell, hreserved, hfinder, ht]
  cases ha : alignCell v r c with
  | none => rfl
  | some j =>
    have hj : some j = some k := (timingCell_of_alignCell h10 ha (by omega)).symm.trans ht
    exact Option.some.inj hj

theorem timingCell_row (i : Nat) : timingCell 6 i = some (if i % 2 = 0 then .dark else .light) := by
  simp [timingCell, colour]

theorem timingCell_column (i : Nat) : timingCell i 6 = some (if i % 2 = 0 then .dark else .light) := by
  rw [timingCell]
  split
  · next h =>
    subst h
    rfl
  · simp [colour]

/-- A pattern's cell outside the reserved ones, in the symbol that BUILD leaves. -/
theorem read_builtMatrix_of_patternCell (h10 : v ≤ 10) (hgrid : r < moduleCount v ∧ c < moduleCount v)
    (hk : k ≠ .unset) (hp : isReserved v r c = false ∧ patternCell v r c = k) :
    (builtMatrix v cw cwlen m).read r c = k := by
  obtain ⟨hreserved, hp⟩ := hp
  rw [read_builtMatrix h10 hgrid.1 hgrid.2]
  refine builtCell_of_patternCell hk hp fun hd => ?_
  rw [isReserved_eq_true.2 (.inl hd)] at hreserved
  cases hreserved

theorem read_builtMatrix_finder (h1 : 1 ≤ v) (h10 : v ≤ 10) {w : CellWrite} (hw : w ∈ finderWrites (moduleCount v)) :
    (builtMatrix v cw cwlen m).read w.1.1 w.1.2 = w.2 := by
  obtain ⟨hgrid, hf⟩ := (paints_finder (moduleCount_ge h1) w.1.1 w.1.2 w.2).1 hw
  have hk : w.2 ≠ .unset := fun h => finderCell_ne_unset _ _ _ (h ▸ hf)
  exact read_builtMatrix_of_patternCell h10 hgrid hk (patternCell_of_finderCell h1 h10 hgrid hf)

/-- R162(b). -/
theorem read_builtMatrix_darkModule (h1 : 1 ≤ v) (h10 : v ≤ 10) :
    (builtMatrix v cw cwlen m).read (moduleCount v - 8) 8 = .dark := by
  have hn := moduleCount_ge h1
  rw [read_builtMatrix h10 (by omega) (by omega), builtCell_eq]
  exact if_pos rfl

theorem read_builtMatrix_timing (h1 : 1 ≤ v) (h10 : v ≤ 10)
    (hline : (r = 6 ∧ 8 ≤ c ∧ c + 9 ≤ moduleCount v) ∨ (c = 6 ∧ 8 ≤ r ∧ r + 9 ≤ moduleCount v))
    (ht : timingCell r c = some k) : (builtMatrix v cw cwlen m).read r c = k := by
  have hk : k ≠ .unset := fun h => timingCell_ne_unset r c (h ▸ ht)
  have hn := moduleCount_ge h1
  exact read_builtMatrix_of_patternCell h10 (by omega) hk (patternCell_of_timingCell h1 h10 hline ht)

/-- The dark module is no format or version cell (R162(d)). -/
theorem read_builtMatrix_format (h1 : 1 ≤ v) (h10 : v ≤ 10)
    (hp : (r, c) ∈ formatCells (moduleCount v) ++ versionCells v) : (builtMatrix v cw cwlen m).read r c = .light := by
  have hn := moduleCount_ge h1
  have hp := List.mem_append.1 hp
  have hreserved : isReserved v r c = true := isReserved_eq_true.2 (.inr hp)
  obtain ⟨hr, hc⟩ := isReserved_lt h1 hreserved
  rw [read_builtMatrix h10 hr hc]
  refine builtCell_of_patternCell (by decide) (patternCell_of_isReserved hreserved) fun hd => ?_
  rw [mem_formatCells hn, mem_versionCells] at hp
  rw [darkModule, Prod.mk.injEq] at hd
  omega

/-! The number of data cells (R161). -/

/-- A block of cells: the rows and the columns from the first number up to the second, without it. -/
abbrev CellBlock := (Nat × Nat) × Nat × Nat

/-- The numbers of an interval, 6 left out: the rows or columns of a block that are no timing line. -/
def offTiming (i : Nat × Nat) : Finset Nat := (Finset.Ico i.1 i.2).erase 6

def CellBlock.cells (b : CellBlock) : Finset (Nat × Nat) := offTiming b.1 ×ˢ offTiming b.2

/-- The corners with the format cells and the dark module, and the version cells (R152, R155). -/
def edgeBlocks (v : Nat) : List CellBlock :=
  [((0, 9), 0, 9), ((moduleCount v - 8, moduleCount v), 0, 9), ((0, 9), moduleCount v - 8, moduleCount v)] ++
    if 7 ≤ v then [((0, 6), moduleCount v - 11, moduleCount v - 8), ((moduleCount v - 11, moduleCount v - 8), 0, 6)]
    else []

/-- The alignment pattern around a centre (R154). -/
def alignBlock (a : Nat × Nat) : CellBlock := ((a.1 - 2, a.1 + 3), a.2 - 2, a.2 + 3)

/-- The blocks that hold what steps 2, 4 and 4a write off the timing lines. -/
def fixedBlocks (v : Nat) : List CellBlock := edgeBlocks v ++ (alignCentres v).map alignBlock

theorem mem_offTiming {i : Nat × Nat} {x : Nat} : x ∈ offTiming i ↔ x ≠ 6 ∧ i.1 ≤ x ∧ x < i.2 := by simp [offTiming]

theorem CellBlock.mem_cells {b : CellBlock} :
    (r, c) ∈ b.cells ↔ (r ≠ 6 ∧ b.1.1 ≤ r ∧ r < b.1.2) ∧ c ≠ 6 ∧ b.2.1 ≤ c ∧ c < b.2.2 := by
  rw [CellBlock.cells, Finset.mem_product, mem_offTiming, mem_offTiming]

section
variable (hr : r ≠ 6) (hc : c ≠ 6)
include hr hc

theorem alignCell_eq_none_iff (h10 : v ≤ 10) :
    alignCell v r c = none ↔ ∀ b ∈ (alignCentres v).map alignBlock, (r, c) ∉ b.cells := by
  have hblock : ∀ a : Nat × Nat, (r, c) ∈ (alignBlock a).cells ↔ nearCentre a r c = true := fun a => by
    rw [CellBlock.mem_cells, nearCentre_eq_true, alignBlock]
    dsimp only
    omega
  simp only [List.forall_mem_map, hblock, Option.eq_none_iff_forall_ne_some, ne_eq, alignCell_eq_some_iff h10]
  exact ⟨fun h a ha hnear => h _ ⟨a, ha, hnear, rfl⟩, fun h k ⟨a, ha, hnear, _⟩ => h a ha hnear⟩

theorem reserved_finder_eq_none_iff (h1 : 1 ≤ v) (hgrid : r < moduleCount v ∧ c < moduleCount v) :
    isReserved v r c = false ∧ finderCell (moduleCount v) r c = none ↔
      ∀ b ∈ edgeBlocks v, (r, c) ∉ b.cells := by
  have hn := moduleCount_ge h1
  rw [← Bool.not_eq_true, isReserved_iff h1, finderCell_eq_none_iff hn hgrid, edgeBlocks]
  by_cases h7 : 7 ≤ v
  · simp [h7, CellBlock.mem_cells, hr, hc, hgrid]
    constructor <;> intro h <;> omega
  · simp [h7, CellBlock.mem_cells, hr, hc, hgrid]
    omega

/-- Off the timing lines a cell of the grid is a data cell exactly when no block has it. -/
theorem patternCell_eq_unset_iff_blocks (h1 : 1 ≤ v) (h10 : v ≤ 10)
    (hgrid : r < moduleCount v ∧ c < moduleCount v) :
    patternCell v r c = .unset ↔ ∀ b ∈ fixedBlocks v, (r, c) ∉ b.cells := by
  rw [patternCell_eq_unset, fixedBlocks, List.forall_mem_append, ← alignCell_eq_none_iff hr hc h10,
    ← reserved_finder_eq_none_iff hr hc h1 hgrid]
  tauto

end

/-- The grid off the timing lines. -/
def gridBlock (v : Nat) : CellBlock := ((0, moduleCount v), 0, moduleCount v)

theorem toFinset_dataCells (h1 : 1 ≤ v) (h10 : v ≤ 10) :
    (dataCells v).toFinset = (gridBlock v).cells \ (fixedBlocks v).toFinset.biUnion CellBlock.cells := by
  ext ⟨r, c⟩
  have hgrid : (r, c) ∈ (gridBlock v).cells ↔ (r < moduleCount v ∧ c < moduleCount v) ∧ r ≠ 6 ∧ c ≠ 6 := by
    rw [CellBlock.mem_cells, gridBlock]
    dsimp only
    omega
  rw [List.mem_toFinset, mem_dataCells h1, Finset.mem_sdiff, hgrid,
    and_assoc (a := r < moduleCount v ∧ c < moduleCount v)]
  refine and_congr_right fun hin => ?_
  rw [← and_iff_right_of_imp (off_timing_of_patternCell (v := v))]
  refine and_congr_right fun ⟨hr, hc⟩ => ?_
  rw [patternCell_eq_unset_iff_blocks hr hc h1 h10 hin]
  simp

/-- The blocks lie in the grid and have no cell in common. -/
theorem fixedBlocks_fit : ∀ v ∈ List.range' 1 10, (∀ b ∈ fixedBlocks v, b.1.2 ≤ moduleCount v ∧ b.2.2 ≤ moduleCount v) ∧
    ∀ a ∈ fixedBlocks v, ∀ b ∈ fixedBlocks v,
      a = b ∨ (a.1.2 ≤ b.1.1 ∨ b.1.2 ≤ a.1.1) ∨ (a.2.2 ≤ b.2.1 ∨ b.2.2 ≤ a.2.1) := by decide +kernel

/-- The cells of the blocks and the data cells make up the grid off the timing lines. -/
theorem sum_card_fixedBlocks : ∀ v ∈ List.range' 1 10,
    ∑ b ∈ (fixedBlocks v).toFinset, b.cells.card + dataCellRow.getD (v - 1) 0 =
      (moduleCount v - 1) * (moduleCount v - 1) := by
  decide +kernel

theorem card_gridBlock (h1 : 1 ≤ v) : (gridBlock v).cells.card = (moduleCount v - 1) * (moduleCount v - 1) := by
  have hn := moduleCount_ge h1
  have h6 : 6 ∈ Finset.Ico 0 (moduleCount v) := Finset.mem_Ico.2 ⟨Nat.zero_le 6, by omega⟩
  rw [CellBlock.cells, Finset.card_product, gridBlock, offTiming, Finset.card_erase_of_mem h6, Nat.card_Ico, Nat.sub_zero]

theorem length_dataCells (hv : v ∈ List.range' 1 10) : (dataCells v).length = dataCellRow.getD (v - 1) 0 := by
  obtain ⟨h1, h10⟩ : 1 ≤ v ∧ v < 1 + 10 := List.mem_range'_1.1 hv
  obtain ⟨hin, hapart⟩ := fixedBlocks_fit v hv
  have hdisjoint : ((fixedBlocks v).toFinset : Set CellBlock).PairwiseDisjoint CellBlock.cells := by
    intro a ha b hb hne
    refine Finset.disjoint_left.2 fun ⟨r, c⟩ hra hrb => ?_
    have := (hapart a (List.mem_toFinset.1 ha) b (List.mem_toFinset.1 hb)).resolve_left hne
    rw [CellBlock.mem_cells] at hra hrb
    omega
  have hsubset : (fixedBlocks v).toFinset.biUnion CellBlock.cells ⊆ (gridBlock v).cells := by
    refine Finset.biUnion_subset.2 fun b hb ⟨r, c⟩ hrc => ?_
    obtain ⟨hb1, hb2⟩ := hin b (List.mem_toFinset.1 hb)
    rw [CellBlock.mem_cells] at hrc ⊢
    rw [gridBlock]
    dsimp only
    omega
  have hsum := sum_card_fixedBlocks v hv
  rw [← List.toFinset_card_of_nodup (nodup_dataCells v), toFinset_dataCells h1 (by omega),
    Finset.card_sdiff_of_subset hsubset, card_gridBlock h1, Finset.card_biUnion hdisjoint, ← hsum,
    Nat.add_sub_cancel_left]

theorem length_gridCells_filter (v : Nat) :
    ((gridCells (moduleCount v)).filter fun p => !(dataCells v).contains p).length =
    moduleCount v * moduleCount v - (dataCells v).length := by
  have hproduct : gridCells (moduleCount v) = List.range (moduleCount v) ×ˢ List.range (moduleCount v) := rfl
  have hnodup : (gridCells (moduleCount v)).Nodup := hproduct ▸ List.nodup_range.product List.nodup_range
  have hdata : ((gridCells (moduleCount v)).filter fun p => (dataCells v).contains p).Perm (dataCells v) := by
    refine (List.perm_ext_iff_of_nodup (hnodup.filter _) (nodup_dataCells v)).2 fun p => ?_
    rw [List.mem_filter, List.contains_iff_mem, hproduct, List.mem_product, List.mem_range, List.mem_range]
    exact and_iff_right_of_imp dataCells_bounds
  have hall : (gridCells (moduleCount v)).length = moduleCount v * moduleCount v := by
    rw [hproduct, List.length_product, List.length_range]
  have hsplit := (gridCells (moduleCount v)).length_eq_length_filter_add fun p => (dataCells v).contains p
  rw [hdata.length_eq, hall] at hsplit
  omega

/-- Settles O50: the patterns and reserved cells are in no later step's way, and the blocks leave the printed counts. -/
theorem buildLeavesTheFixedPatterns : Obligations.BuildLeavesTheFixedPatterns := by
  refine ⟨fun s m he ⟨h1, h10⟩ hm => ?_, fun v hv => ?_⟩
  · refine ⟨_, exec_build_of_running he hm, fun w hw => read_builtMatrix_finder h1 h10 hw,
      read_builtMatrix_darkModule h1 h10, fun k hlo hhi => ?_, fun p hp => read_builtMatrix_format h1 h10 hp⟩
    have hfit : k + 9 ≤ moduleCount s.version.toNat := by
      have hk : k ≤ moduleCount s.version.toNat - 9 := hhi
      omega
    exact ⟨read_builtMatrix_timing h1 h10 (.inl ⟨rfl, hlo, hfit⟩) (timingCell_row k),
      read_builtMatrix_timing h1 h10 (.inr ⟨rfl, hlo, hfit⟩) (timingCell_column k)⟩
  · have hlen := length_dataCells hv
    exact ⟨hlen, by rw [length_gridCells_filter, hlen]⟩

end Sys2Proof.Machine

/-! SUPPORT. The penalties (R171 to R174, R178): each rule's count over the grid against the sums and the sets of the
statements, and its bound. -/
namespace Sys2Proof.Machine

/-! Rule A (R171). -/

/-- The neighbours are the cells at the eight offsets, each shifted by one so that it is a natural number. -/
theorem neighbours_eq_map (r c : Nat) :
    neighbours r c = neighbourOffsets.map fun d => (((r : Int) + d.1 + 1).toNat, ((c : Int) + d.2 + 1).toNat) := by
  have hback (x : Nat) : ((x : Int) + -1 + 1).toNat = x := by omega
  have hsame (x : Nat) : ((x : Int) + 0 + 1).toNat = x + 1 := by omega
  have hnext (x : Nat) : ((x : Int) + 1 + 1).toNat = x + 2 := by omega
  simp only [neighbours, neighbourOffsets, List.map_cons, List.map_nil, hback, hsame, hnext]

/-- A shifted neighbour shares the colour exactly when the cell itself is inside the grid and has it. -/
theorem sharesColour_iff (n : Nat) (m : Matrix) (k : Module) (x y : Int) :
    sharesColour n m k ((x + 1).toNat, (y + 1).toNat) = true ↔
      0 ≤ x ∧ x < n ∧ 0 ≤ y ∧ y < n ∧ m.read x.toNat y.toNat = k := by
  have hpos (z : Int) : 1 ≤ (z + 1).toNat ↔ 0 ≤ z := by omega
  have hlt (z : Int) (hz : 0 ≤ z) : (z + 1).toNat ≤ n ↔ z < n := by omega
  have hpred (z : Int) : (z + 1).toNat - 1 = z.toNat := by omega
  simp only [sharesColour, Bool.and_eq_true, decide_eq_true_eq, beq_iff_eq, hpos, hpred, and_assoc]
  exact and_congr_right fun hx => and_congr (hlt x hx) (and_congr_right fun hy => and_congr_left' (hlt y hy))

theorem sameCount_eq_neighboursAlike (n : Nat) (m : Matrix) (r c : Nat) : sameCount n m r c = neighboursAlike n m r c := by
  rw [sameCount, neighbours_eq_map, List.countP_map, neighboursAlike]
  refine List.countP_congr fun d _ => ?_
  rw [Function.comp_apply, sharesColour_iff, decide_eq_true_iff]

theorem neighboursAlike_le_eight (n : Nat) (m : Matrix) (r c : Nat) : neighboursAlike n m r c ≤ 8 := List.countP_le_length

/-- A sum over the cells of the grid, row by row. -/
theorem sum_map_gridCells (n : Nat) (f : Nat × Nat → Nat) :
    ((gridCells n).map f).sum = ∑ r ∈ Finset.range n, ∑ c ∈ Finset.range n, f (r, c) := by
  rw [gridCells, List.map_flatMap, List.flatMap_def, List.sum_flatten, List.map_map]
  simp only [List.map_map]
  rfl

theorem ruleA_eq_penaltyA (n : Nat) (m : Matrix) : ruleA n m = penaltyA n m := by
  rw [ruleA, sum_map_gridCells]
  simp only [ruleACell, sameCount_eq_neighboursAlike]
  rfl

/-- A cell has eight neighbours, so it contributes at most 3 + 3 (R178). -/
theorem penaltyA_le (n : Nat) (m : Matrix) : penaltyA n m ≤ 6 * n ^ 2 := by
  have hcell (r c : Nat) : (if 5 ≤ neighboursAlike n m r c then 3 + (neighboursAlike n m r c - 5) else 0) ≤ 6 := by
    have := neighboursAlike_le_eight n m r c
    split <;> omega
  calc penaltyA n m ≤ ∑ _r ∈ Finset.range n, ∑ _c ∈ Finset.range n, 6 :=
        Finset.sum_le_sum fun r _ => Finset.sum_le_sum fun c _ => hcell r c
    _ = 6 * n ^ 2 := by
        simp only [Finset.sum_const, Finset.card_range, smul_eq_mul]
        ring

/-! Counting the cells of a range of rows and columns. -/

theorem card_filter_product_range (n k : Nat) (p : Nat × Nat → Prop) [DecidablePred p] :
    ((Finset.range n ×ˢ Finset.range k).filter p).card =
      ((List.range n).map fun a => (List.range k).countP fun b => decide (p (a, b))).sum := by
  have hrow (a : Nat) :
      (List.range k).countP (fun b => decide (p (a, b))) = ∑ b ∈ Finset.range k, if p (a, b) then 1 else 0 := by
    rw [← Finset.card_filter, List.countP_eq_length_filter]
    rfl
  rw [Finset.card_filter, Finset.sum_product, funext hrow]
  rfl

theorem card_filter_product_range_le (n k : Nat) (p : Nat × Nat → Prop) [DecidablePred p] :
    ((Finset.range n ×ˢ Finset.range k).filter p).card ≤ n * k :=
  (Finset.card_filter_le _ _).trans_eq (by rw [Finset.card_product, Finset.card_range, Finset.card_range])

/-! Rule B (R172). -/

theorem finderLike_getD : ∀ k ∈ Finset.range 7, finderLike.getD k .unset = ruleBColour k := by decide

/-- Seven cells in line are a match exactly when each has its colour of the pattern. -/
theorem all_finderLike (f : Nat → Module) :
    ((List.range 7).all fun k => f k == finderLike.getD k .unset) = decide (∀ k ∈ Finset.range 7, f k = ruleBColour k) := by
  rw [Bool.eq_iff_iff, List.all_eq_true, decide_eq_true_iff]
  refine forall_congr' fun k => ?_
  rw [List.mem_range, ← Finset.mem_range]
  refine forall_congr' fun hk => ?_
  rw [finderLike_getD k hk, beq_iff_eq]

theorem rowMatch_eq (m : Matrix) (r c : Nat) :
    rowMatch m r c = decide (∀ k ∈ Finset.range 7, m.read r (c + k) = ruleBColour k) := all_finderLike _

theorem colMatch_eq (m : Matrix) (r c : Nat) :
    colMatch m r c = decide (∀ k ∈ Finset.range 7, m.read (r + k) c = ruleBColour k) := all_finderLike fun k => m.read (r + k) c

theorem ruleB_eq_penaltyB (n : Nat) (m : Matrix) : ruleB n m = penaltyB n m := by
  rw [penaltyB, card_filter_product_range, card_filter_product_range, ← Nat.mul_add, ruleB, rowMatches, colMatches]
  simp only [rowMatch_eq, colMatch_eq]

/-- A row and a column have N - 6 starts each (R178). -/
theorem penaltyB_le (n : Nat) (m : Matrix) : penaltyB n m ≤ 40 * 2 * n * (n - 6) := by
  rw [penaltyB, ← Nat.mul_add, Nat.mul_assoc 40, Nat.mul_assoc 40, Nat.mul_assoc 2, Nat.two_mul (n * (n - 6))]
  exact Nat.mul_le_mul_left _
    (Nat.add_le_add (card_filter_product_range_le n (n - 6) _) (card_filter_product_range_le n (n - 6) _))

/-! Rule C (R173). -/

theorem darkCount_eq_darkCells (n : Nat) (m : Matrix) : darkCount n m = darkCells n m := by
  rw [darkCells, card_filter_product_range, darkCount, gridCells, List.countP_flatMap]
  refine congrArg List.sum (List.map_congr_left fun r _ => List.countP_map.trans (List.countP_congr fun c _ => ?_))
  rw [Function.comp_apply, beq_iff_eq, decide_eq_true_iff]

theorem darkCells_le (n : Nat) (m : Matrix) : darkCells n m ≤ n * n := card_filter_product_range_le n n _

theorem absDiff_eq_natAbs (a b : Nat) : absDiff a b = ((a : Int) - b).natAbs := by
  rw [absDiff]
  omega

theorem ruleC_eq_penaltyC (n : Nat) (m : Matrix) : ruleC n m = penaltyC n m := by
  rw [ruleC, ruleCOf, darkCount_eq_darkCells, absDiff_eq_natAbs, penaltyC]
  push_cast
  rfl

/-- The dark cells are 0 to N², so their number is at most N² / 2 off the half: ten steps of 5 % (R178). -/
theorem penaltyC_le (n : Nat) (m : Matrix) : penaltyC n m ≤ 100 := by
  have hdark := darkCells_le n m
  have hdiff : (100 * (darkCells n m : Int) - 50 * ((n : Int) * n)).natAbs ≤ 10 * (5 * (n * n)) := by
    have hcast : (n : Int) * n = ((n * n : Nat) : Int) := (Nat.cast_mul n n).symm
    rw [hcast]
    omega
  have hsteps := Nat.div_le_of_le_mul (Nat.mul_comm 10 _ ▸ hdiff)
  rw [penaltyC]
  omega

/-! SCORE (R174). -/

theorem penalties_le {n k : Nat} (h : n ≤ k) (m : Matrix) :
    penaltyA n m + penaltyB n m + penaltyC n m ≤ 6 * k ^ 2 + 40 * 2 * k * (k - 6) + 100 := by
  have ha : penaltyA n m ≤ 6 * k ^ 2 := (penaltyA_le n m).trans (by gcongr)
  have hb : penaltyB n m ≤ 40 * 2 * k * (k - 6) := (penaltyB_le n m).trans (by gcongr)
  have hc := penaltyC_le n m
  omega

theorem toNat_word {k : Nat} (h : k < 2 ^ 32) : (word k).toNat = k := (BitVec.toNat_ofNat k 32).trans (Nat.mod_eq_of_lt h)

/-- VERSION has 4 bits, so N is at most 77, and the three penalties and their sum fit their 32 bits. -/
theorem penalties_lt (s : State) :
    penaltyA s.nmod s.mat + penaltyB s.nmod s.mat + penaltyC s.nmod s.mat < 2 ^ 32 := by
  have hn : s.nmod ≤ 77 := by
    have := s.version.isLt
    rw [State.nmod]
    omega
  exact (penalties_le hn s.mat).trans_lt (by decide)

theorem toNat_scoreState (s : State) :
    (scoreState s).pena.toNat = penaltyA s.nmod s.mat ∧ (scoreState s).penb.toNat = penaltyB s.nmod s.mat ∧
      (scoreState s).penc.toNat = penaltyC s.nmod s.mat ∧
      (scoreState s).res.toNat = penaltyA s.nmod s.mat + penaltyB s.nmod s.mat + penaltyC s.nmod s.mat := by
  have hlt := penalties_lt s
  have ha : (scoreState s).pena.toNat = penaltyA s.nmod s.mat :=
    (congrArg (fun k => (word k).toNat) (ruleA_eq_penaltyA _ _)).trans (toNat_word (by omega))
  have hb : (scoreState s).penb.toNat = penaltyB s.nmod s.mat :=
    (congrArg (fun k => (word k).toNat) (ruleB_eq_penaltyB _ _)).trans (toNat_word (by omega))
  have hc : (scoreState s).penc.toNat = penaltyC s.nmod s.mat :=
    (congrArg (fun k => (word k).toNat) (ruleC_eq_penaltyC _ _)).trans (toNat_word (by omega))
  have hsum : (scoreState s).res = (scoreState s).pena + (scoreState s).penb + (scoreState s).penc := rfl
  refine ⟨ha, hb, hc, ?_⟩
  rw [hsum, BitVec.toNat_add, BitVec.toNat_add, ha, hb, hc, Nat.mod_add_mod, Nat.mod_eq_of_lt hlt]

theorem exec_score_of_running {s : State} (he : s.Running) : exec .score s = .next (scoreState s) :=
  (execScore.eq_1 s).trans (command_of_ok he rfl)

/-- Settles O52: each rule's count is the statement's, and 32 bits hold the sum of the bounds. -/
theorem scoreLeavesThePenalties : Obligations.ScoreLeavesThePenalties := by
  intro s he
  obtain ⟨ha, hb, hc, hres⟩ := toNat_scoreState s
  refine ⟨decode_of_encode_eq rfl rfl, scoreState s, exec_score_of_running he, rfl, ha, hb, hc, by rw [hres, ha, hb, hc],
    ha.trans_le (penaltyA_le _ _), hb.trans_le (penaltyB_le _ _), hc.trans_le (penaltyC_le _ _), fun hv => ?_⟩
  have hn : s.nmod ≤ 57 := by
    have h10 : s.version.toNat ≤ 10 := hv.2
    rw [State.nmod]
    omega
  exact hres.trans_le (penalties_le hn s.mat)

end Sys2Proof.Machine

/-! SUPPORT. EVAL (R176): the eight totals, what the last trial leaves, and the running best as the least index with the
minimal total. -/
namespace Sys2Proof.Machine

variable {s : State}

/-! The trials. -/

/-- A trial writes MAT, MASK, FINAL, the penalties and RES, so nothing that a later BUILD or SCORE reads. -/
theorem trialsState_frame (ms : List Nat) (s : State) :
    trialsState ms s = { s with
      mat := (trialsState ms s).mat, mask := (trialsState ms s).mask, final := (trialsState ms s).final
      pena := (trialsState ms s).pena, penb := (trialsState ms s).penb, penc := (trialsState ms s).penc
      pen := (trialsState ms s).pen, res := (trialsState ms s).res } := by
  induction ms generalizing s with
  | nil => rfl
  | cons m ms ih => exact ih (trialState m s)

theorem sameSequence_trialsState (ms : List Nat) (s : State) : (trialsState ms s).SameSequence s := by
  rw [trialsState_frame]
  exact
    { version := rfl
      level := rfl
      ovf := rfl
      dbuf := fun _ _ => rfl
      ecbuf := fun _ _ => rfl
      cwlen := rfl
      cw := fun _ _ => rfl }

theorem sameSequence_trialState (m : Nat) (s : State) : (trialState m s).SameSequence s := sameSequence_trialsState [m] s

/-- After the trials of a list, each total of the list is that of BUILD and SCORE from the state before them (R176). -/
theorem getElem_pen_trialsState {ms : List Nat} {k : Nat} (hk : k < 8)
    (h : k ∈ ms ∨ s.pen[k] = (scoreState (buildState k s)).res) :
    (trialsState ms s).pen[k] = (scoreState (buildState k s)).res := by
  induction ms generalizing s with
  | nil => exact h.resolve_left (List.not_mem_nil)
  | cons m ms ih =>
    have hsame := (sameSequence_trialState m s).res_scoreState k
    refine (ih (s := trialState m s) (or_iff_not_imp_left.2 fun hmem => ?_)).trans hsame
    rw [hsame, getElem_pen_trialState m s hk]
    split
    · next heq => rw [heq]
    · next hne => exact h.resolve_left fun hcons => (List.mem_cons.1 hcons).elim (Ne.symm hne) hmem

theorem penalty_eq_getElem (s : State) {k : Nat} (hk : k < 8) : s.penalty k = s.pen[k] := by
  simp [State.penalty, hk]

theorem evalState_penalty (s : State) : (evalState s).penalty = (trialsState (List.range 8) s).penalty := by
  have hpen : (evalState s).pen = (trialsState (List.range 8) s).pen := rfl
  funext m
  rw [State.penalty, State.penalty, hpen]

theorem evalState_best (s : State) : (evalState s).best = BitVec.ofNat 3 (bestMask (trialsState (List.range 8) s)) := rfl

theorem evalState_res (s : State) : (evalState s).res = word (bestMask (trialsState (List.range 8) s)) := rfl

theorem penalty_evalState {k : Nat} (hk : k < 8) (s : State) : (evalState s).penalty k = (scoreState (buildState k s)).res := by
  rw [evalState_penalty, penalty_eq_getElem _ hk]
  exact getElem_pen_trialsState hk (.inl (List.mem_range.2 hk))

/-- The last trial is that of mask 7 (R176). -/
theorem evalState_lastTrial (s : State) :
    (evalState s).mat = (buildState 7 s).mat ∧ (evalState s).mask = 7 ∧ (evalState s).final = false ∧
      (evalState s).pena = (scoreState (buildState 7 s)).pena ∧ (evalState s).penb = (scoreState (buildState 7 s)).penb ∧
      (evalState s).penc = (scoreState (buildState 7 s)).penc := by
  have hsame := sameSequence_trialsState (List.range 7) s
  simp only [evalState, trialsState_range_eight]
  exact ⟨hsame.mat_buildState 7, rfl, rfl, hsame.penalties_trialState 7⟩

theorem evalState_frame (s : State) :
    evalState s = { s with
      mat := (evalState s).mat, mask := (evalState s).mask, final := (evalState s).final
      pena := (evalState s).pena, penb := (evalState s).penb, penc := (evalState s).penc
      pen := (evalState s).pen, best := (evalState s).best, res := (evalState s).res } :=
  congrArg (fun t : State => { t with best := (evalState s).best, res := (evalState s).res })
    (trialsState_frame (List.range 8) s)

/-! The running best. -/

theorem betterMask_cases (s : State) (best m : Nat) :
    (betterMask s best m = m ∧ (s.penalty m).toNat < (s.penalty best).toNat) ∨
      (betterMask s best m = best ∧ (m = 0 ∨ (s.penalty best).toNat ≤ (s.penalty m).toNat)) := by
  rw [betterMask]
  split
  · next h => exact .inl ⟨rfl, h.2⟩
  · next h => exact .inr ⟨rfl, (Nat.eq_zero_or_pos m).imp_right fun hm => Nat.le_of_not_lt fun hlt => h ⟨hm, hlt⟩⟩

/-- The best of the masks below `k`: the least of them whose total is minimal, and 0 when there is none. -/
structure IsBestBelow (total : Nat → Word) (k best : Nat) : Prop where
  le_pred : best ≤ k - 1
  minimal : ∀ m < k, (total best).toNat ≤ (total m).toNat
  least : ∀ m < best, (total best).toNat < (total m).toNat

theorem IsBestBelow.betterMask {k best : Nat} (h : IsBestBelow s.penalty k best) :
    IsBestBelow s.penalty (k + 1) (betterMask s best k) := by
  obtain ⟨hle, hminimal, hleast⟩ := h
  obtain ⟨heq, hlt⟩ | ⟨heq, hkeep⟩ := betterMask_cases s best k <;> rw [heq]
  · have hbelow (m : Nat) (hm : m < k) : (s.penalty k).toNat < (s.penalty m).toNat := hlt.trans_le (hminimal m hm)
    refine ⟨le_rfl, fun m hm => ?_, hbelow⟩
    obtain hm | rfl := Nat.lt_succ_iff_lt_or_eq.1 hm
    · exact (hbelow m hm).le
    · exact le_rfl
  · refine ⟨by omega, fun m hm => ?_, hleast⟩
    obtain hm | rfl := Nat.lt_succ_iff_lt_or_eq.1 hm
    · exact hminimal m hm
    · obtain rfl | hkept := hkeep
      · rw [Nat.le_zero.1 hle]
      · exact hkept

theorem isBestBelow_foldl_betterMask (s : State) (k : Nat) :
    IsBestBelow s.penalty k ((List.range k).foldl (betterMask s) 0) := by
  induction k with
  | zero => exact ⟨le_rfl, fun _ hm => (Nat.not_lt_zero _ hm).elim, fun _ hm => (Nat.not_lt_zero _ hm).elim⟩
  | succ k ih =>
    rw [List.range_succ, List.foldl_append]
    exact ih.betterMask

theorem isBestBelow_bestMask (s : State) : IsBestBelow s.penalty 8 (bestMask s) := isBestBelow_foldl_betterMask s 8

theorem bestMask_lt (s : State) : bestMask s < 8 := Nat.lt_succ_of_le (isBestBelow_bestMask s).le_pred

/-! EVAL (R176). -/

theorem toNat_best_evalState (s : State) : (evalState s).best.toNat = bestMask (trialsState (List.range 8) s) := by
  rw [evalState_best, BitVec.toNat_ofNat]
  exact Nat.mod_eq_of_lt (bestMask_lt _)

theorem res_evalState (s : State) : (evalState s).res = zext (evalState s).best := by
  rw [evalState_res, evalState_best, word, zext]
  exact (BitVec.setWidth_ofNat_of_le_of_lt (by decide) (bestMask_lt _)).symm

/-- BEST is the running best after all eight masks. -/
theorem isBestBelow_best_evalState (s : State) : IsBestBelow (evalState s).penalty 8 (evalState s).best.toNat := by
  rw [evalState_penalty, toNat_best_evalState]
  exact isBestBelow_bestMask _

theorem exec_eval_of_running (he : s.Running) : exec .eval s = .next (evalState s) :=
  (execEval.eq_1 s).trans (command_of_ok he rfl)

/-- Settles O53: no trial changes what a later one reads, so the totals are those of eight trials from one state, and the
running best keeps the least minimal one. -/
theorem evalPicksTheLeastMinimalMask : Obligations.EvalPicksTheLeastMinimalMask := by
  intro s he
  obtain ⟨hmat, hmask, hfinal, hpenalties⟩ := evalState_lastTrial s
  have hbest := isBestBelow_best_evalState s
  refine ⟨decode_of_encode_eq rfl rfl, evalState s, exec_eval_of_running he, evalState_frame s, fun m hm => ?_,
    hmask, hfinal, res_evalState s, hbest.minimal, hbest.least⟩
  refine ⟨buildState m s, scoreState (buildState m s), exec_build_of_running he (Nat.le_of_lt_succ hm),
    exec_score_of_running (s := buildState m s) he, penalty_evalState hm s, ?_⟩
  rintro rfl
  exact ⟨hmat, hmask, hfinal, hpenalties⟩

end Sys2Proof.Machine

/-! SUPPORT. The BCH words (R187 to R192): FMT's and VINF's words against the printed tables and as multiples of the
generators. -/
namespace Sys2Proof.Machine

theorem encode_fmt (d : Nat) : encode (.fmt d) = word (0x4A000000 + d) :=
  encode_eq_word (by simp only [opcodeOf, operandBits]; omega)

theorem encode_vinf (d : Nat) : encode (.vinf d) = word (0x4B000000 + d) :=
  encode_eq_word (by simp only [opcodeOf, operandBits]; omega)

/-- The 32 format words are the printed ones (R189). -/
theorem fmt15_eq_printed : ∀ d < 32, fmt15 d = printedFormatWords.getD d 0 := by decide +kernel

/-- Without FMASK a format word has its data bits on top and is a code word of BCH(15,5) (R185, R189). -/
theorem printedFormatWords_bch : ∀ d < 32, (printedFormatWords.getD d 0 ^^^ 0x5412) / 2 ^ 10 = d ∧
    ∃ q < 32, printedFormatWords.getD d 0 ^^^ 0x5412 = clmul q 0x537 := by decide +kernel

/-- A version word has its data bits on top and is a code word of BCH(18,6) (R185, R192). -/
theorem vinf18_bch : ∀ d < 64, vinf18 d / 2 ^ 12 = d ∧ ∃ q < 64, vinf18 d = clmul q 0x1F25 := by decide +kernel

/-- The version words that the block writes are the printed ones (R192). -/
theorem vinf18_eq_printed : ∀ v ≤ 10, 7 ≤ v → vinf18 v = printedVersionWords.getD (v - 7) 0 := by decide +kernel

/-- Settles O54: an operand in range gives the word of the table, one out of range enters the fault. -/
theorem fmtAndVinfGiveTheBchWords : Obligations.FmtAndVinfGiveTheBchWords := by
  intro s d he hd
  have hfmt : exec (.fmt d) s = command (encode (.fmt d)) s fun s => inRange (d ≤ 31) (s.setRes (word (fmt15 d))) := rfl
  have hvinf : exec (.vinf d) s = command (encode (.vinf d)) s fun s => inRange (d ≤ 63) (s.setRes (word (vinf18 d))) := rfl
  refine ⟨decode_of_encode_eq (encode_fmt d) (decide_eq_true hd), decode_of_encode_eq (encode_vinf d) (decide_eq_true hd),
    fun hin => ⟨?_, printedFormatWords_bch d (Nat.lt_succ_of_le hin)⟩, fun hout => ?_, fun hin => ?_, fun hout => ?_⟩
  · rw [← fmt15_eq_printed d (Nat.lt_succ_of_le hin)]
    exact exec_of_inRange hfmt he (decide_eq_true hin)
  · rw [← encode_fmt]
    exact exec_of_not_inRange hfmt he (decide_eq_false (Nat.not_le.2 hout))
  · obtain ⟨hdata, hcode⟩ := vinf18_bch d (Nat.lt_succ_of_le hin)
    exact ⟨vinf18 d, exec_of_inRange hvinf he (decide_eq_true hin), hdata, hcode, fun h7 h10 => vinf18_eq_printed d h10 h7⟩
  · rw [← encode_vinf]
    exact exec_of_not_inRange hvinf he (decide_eq_false (Nat.not_le.2 hout))

end Sys2Proof.Machine

/-! SUPPORT. WRFMT (R186, R191, R193, R194): the cells of the two words, each of which belongs to one bit, and what WRFMT
leaves in and outside them. -/
namespace Sys2Proof.Machine

/-! What an overwrite leaves. -/

/-- A cell whose writes all have one colour ends with it. -/
theorem Matrix.read_overwrite_of_mem (m : Matrix) {ws : List CellWrite} {r c : Nat} {k : Module} (hin : r < 57 ∧ c < 57)
    (hmem : ((r, c), k) ∈ ws) (hk : ∀ w ∈ ws, w.1 = (r, c) → w.2 = k) : (m.overwrite ws).read r c = k := by
  rw [Matrix.read_overwrite m ws r c hin]
  split
  · next w hw =>
    have hcell : (w.1 == (r, c)) = true := List.find?_some (p := fun w : CellWrite => w.1 == (r, c)) hw
    exact hk w (List.mem_of_find?_eq_some hw) (beq_iff_eq.1 hcell)
  · next hnone => exact absurd (beq_self_eq_true (r, c)) (List.find?_eq_none.1 hnone _ hmem)

/-- A cell that no write names keeps its colour. -/
theorem Matrix.read_overwrite_of_forall_ne (m : Matrix) {ws : List CellWrite} {r c : Nat} (h : ∀ w ∈ ws, w.1 ≠ (r, c)) :
    (m.overwrite ws).read r c = m.read r c := by
  by_cases hin : r < 57 ∧ c < 57
  · have hnone : ws.find? (fun w => w.1 == (r, c)) = none :=
      List.find?_eq_none.2 fun w hw heq => h w hw (beq_iff_eq.1 heq)
    rw [Matrix.read_overwrite m ws r c hin, hnone]
  · rw [Matrix.read_outside _ hin, Matrix.read_outside _ hin]

/-! The writes of the two words, bit by bit. -/

theorem mem_formatCells_iff_exists {n : Nat} {p : Nat × Nat} :
    p ∈ formatCells n ↔ ∃ i < 15, p ∈ [copyA n i, copyB n i] := by
  simp only [formatCells, List.mem_flatMap, List.mem_range]

theorem mem_versionCells_iff_exists {v : Nat} {p : Nat × Nat} :
    p ∈ versionCells v ↔ 7 ≤ v ∧ ∃ i < 18, p ∈ [blockA (moduleCount v) i, blockB (moduleCount v) i] := by
  by_cases hv : 7 ≤ v <;> simp [versionCells, hv]

theorem mem_formatWrites {n f : Nat} {w : CellWrite} :
    w ∈ formatWrites n f ↔ ∃ i < 15, w.1 ∈ [copyA n i, copyB n i] ∧ w.2 = colour (f.testBit i) := by
  simp [formatWrites, Prod.ext_iff, or_and_right]

theorem mem_versionWrites {v : Nat} {w : CellWrite} :
    w ∈ versionWrites v ↔ 7 ≤ v ∧
      ∃ i < 18, w.1 ∈ [blockA (moduleCount v) i, blockB (moduleCount v) i] ∧ w.2 = colour ((vinf18 v).testBit i) := by
  by_cases hv : 7 ≤ v <;> simp [versionWrites, hv, Prod.ext_iff, or_and_right]

/-- The number of the format bit in a format cell: column 8 holds copy A, row 8 the rest (R191). -/
def formatIndex (n : Nat) (p : Nat × Nat) : Nat :=
  if p.2 = 8 then if p.1 < 6 then p.1 else if p.1 ≤ 8 then p.1 - 1 else p.1 + 15 - n
  else if n ≤ p.2 + 8 then n - 1 - p.2 else if p.2 = 7 then 8 else 14 - p.2

/-- The number of the version bit in a version cell: the top rows hold block A (R193). -/
def versionIndex (n : Nat) (p : Nat × Nat) : Nat :=
  if p.1 < 6 then 3 * p.1 + (p.2 + 11 - n) else 3 * p.2 + (p.1 + 11 - n)

/-- A format cell belongs to one bit. -/
theorem formatIndex_eq {n i : Nat} {p : Nat × Nat} (hn : 21 ≤ n) (hi : i < 15) (hp : p ∈ [copyA n i, copyB n i]) :
    formatIndex n p = i := by
  rw [List.mem_pair] at hp
  obtain rfl | rfl := hp
  · rw [copyA]
    split_ifs with h6 h8
    · rw [formatIndex, if_pos rfl, if_pos h6]
    · rw [formatIndex, if_pos rfl, if_neg (by omega), if_pos (by omega)]
      omega
    · rw [formatIndex, if_pos rfl, if_neg (by omega), if_neg (by omega)]
      omega
  · rw [copyB]
    split_ifs with h8 h8'
    · rw [formatIndex, if_neg (by omega), if_pos (by omega)]
      omega
    · rw [formatIndex, if_neg (by omega), if_neg (by omega), if_pos rfl, h8']
    · rw [formatIndex, if_neg (by omega), if_neg (by omega), if_neg (by omega)]
      omega

/-- A version cell belongs to one bit. -/
theorem versionIndex_eq {n i : Nat} {p : Nat × Nat} (hn : 21 ≤ n) (hi : i < 18) (hp : p ∈ [blockA n i, blockB n i]) :
    versionIndex n p = i := by
  rw [List.mem_pair] at hp
  obtain rfl | rfl := hp
  · rw [versionIndex, blockA, if_pos (by omega)]
    omega
  · rw [versionIndex, blockB, if_neg (by omega)]
    omega

/-- No cell holds a bit of both words. -/
theorem notMem_versionCells_of_mem_formatCells {v r c : Nat} (hv : 1 ≤ v)
    (hp : (r, c) ∈ formatCells (moduleCount v)) : (r, c) ∉ versionCells v := by
  rw [mem_formatCells (moduleCount_ge hv), moduleCount] at hp
  rw [mem_versionCells, moduleCount]
  omega

/-! What WRFMT leaves. -/

section
variable {s : State}

theorem exec_wrfmt_of_running (he : s.Running) : exec .wrfmt s = .next (wrfmtState s) :=
  (execWrfmt.eq_1 s).trans (command_of_ok he rfl)

theorem wrfmtState_mat (s : State) : (wrfmtState s).mat = s.mat.overwrite
    (formatWrites s.nmod (fmt15 s.formatData) ++ versionWrites s.version.toNat) := rfl

theorem nmod_eq_moduleCount (s : State) : s.nmod = moduleCount s.version.toNat := rfl

theorem lt_of_mem_format_or_version (hs : s.LegalVersion) {r c : Nat}
    (hp : (r, c) ∈ formatCells s.nmod ∨ (r, c) ∈ versionCells s.version.toNat) : r < 57 ∧ c < 57 := by
  have hfit := moduleCount_le hs.2
  have hin := isReserved_lt hs.1 (isReserved_eq_true.2 (.inr hp))
  omega

theorem read_wrfmtState_format (hs : s.LegalVersion) {i r c : Nat} (hi : i < 15)
    (hp : (r, c) ∈ [copyA s.nmod i, copyB s.nmod i]) :
    (wrfmtState s).mat.read r c = colour ((fmt15 s.formatData).testBit i) := by
  have hn : 21 ≤ s.nmod := moduleCount_ge hs.1
  have hcell : (r, c) ∈ formatCells s.nmod := mem_formatCells_iff_exists.2 ⟨i, hi, hp⟩
  rw [wrfmtState_mat]
  refine Matrix.read_overwrite_of_mem _ (lt_of_mem_format_or_version hs (.inl hcell))
    (List.mem_append_left _ (mem_formatWrites.2 ⟨i, hi, hp, rfl⟩)) fun w hw hwp => ?_
  obtain hw | hw := List.mem_append.1 hw
  · obtain ⟨j, hj, hcopy, hcolour⟩ := mem_formatWrites.1 hw
    rw [hcolour, ← formatIndex_eq hn hi hp, ← formatIndex_eq hn hj hcopy, hwp]
  · obtain ⟨h7, j, hj, hblock, -⟩ := mem_versionWrites.1 hw
    exact absurd (mem_versionCells_iff_exists.2 ⟨h7, j, hj, hwp ▸ hblock⟩)
      (notMem_versionCells_of_mem_formatCells hs.1 hcell)

theorem read_wrfmtState_version (hs : s.LegalVersion) (h7 : 7 ≤ s.version.toNat) {i r c : Nat} (hi : i < 18)
    (hp : (r, c) ∈ [blockA s.nmod i, blockB s.nmod i]) :
    (wrfmtState s).mat.read r c = colour ((vinf18 s.version.toNat).testBit i) := by
  have hn : 21 ≤ s.nmod := moduleCount_ge hs.1
  have hcell : (r, c) ∈ versionCells s.version.toNat := mem_versionCells_iff_exists.2 ⟨h7, i, hi, hp⟩
  rw [wrfmtState_mat]
  refine Matrix.read_overwrite_of_mem _ (lt_of_mem_format_or_version hs (.inr hcell))
    (List.mem_append_right _ (mem_versionWrites.2 ⟨h7, i, hi, hp, rfl⟩)) fun w hw hwp => ?_
  obtain hw | hw := List.mem_append.1 hw
  · obtain ⟨j, hj, hcopy, -⟩ := mem_formatWrites.1 hw
    exact absurd hcell (notMem_versionCells_of_mem_formatCells hs.1 (mem_formatCells_iff_exists.2 ⟨j, hj, hwp ▸ hcopy⟩))
  · obtain ⟨-, j, hj, hblock, hcolour⟩ := mem_versionWrites.1 hw
    rw [hcolour, ← versionIndex_eq hn hi hp, ← versionIndex_eq hn hj hblock, hwp]

/-- WRFMT touches no other cell (R194). -/
theorem read_wrfmtState_of_notMem (s : State) {r c : Nat} (hformat : (r, c) ∉ formatCells s.nmod)
    (hversion : (r, c) ∉ versionCells s.version.toNat) : (wrfmtState s).mat.read r c = s.mat.read r c := by
  rw [wrfmtState_mat]
  refine Matrix.read_overwrite_of_forall_ne _ fun w hw hwp => ?_
  obtain hw | hw := List.mem_append.1 hw
  · obtain ⟨i, hi, hcopy, -⟩ := mem_formatWrites.1 hw
    exact hformat (mem_formatCells_iff_exists.2 ⟨i, hi, hwp ▸ hcopy⟩)
  · obtain ⟨h7, i, hi, hblock, -⟩ := mem_versionWrites.1 hw
    exact hversion (mem_versionCells_iff_exists.2 ⟨h7, i, hi, hwp ▸ hblock⟩)

/-- The format data word is one of the 32 (R186). -/
theorem formatData_eq (s : State) : s.formatData = 8 * s.level.toNat + s.mask.toNat := by
  rw [State.formatData, ← Nat.shiftLeft_add_eq_or_of_lt s.mask.isLt, Nat.shiftLeft_eq, Nat.mul_comm]

theorem fmt15_formatData (s : State) :
    fmt15 s.formatData = printedFormatWords.getD (8 * s.level.toNat + s.mask.toNat) 0 := by
  have hlevel := s.level.isLt
  have hmask := s.mask.isLt
  rw [formatData_eq, fmt15_eq_printed _ (by omega)]

end

/-- Settles O55: each cell of the two words is written with its own bit, and the words are the printed ones. -/
theorem wrfmtWritesFormatAndVersionCells : Obligations.WrfmtWritesFormatAndVersionCells := by
  intro s he hs
  refine ⟨decode_of_encode_eq rfl rfl, wrfmtState s, exec_wrfmt_of_running he, rfl, fun i hi p hp => ?_,
    fun h7 i hi p hp => ?_, fun r c => read_wrfmtState_of_notMem s⟩
  · rw [← fmt15_formatData]
    exact read_wrfmtState_format hs hi hp
  · rw [← vinf18_eq_printed _ hs.2 h7]
    exact read_wrfmtState_version hs h7 hi hp

end Sys2Proof.Machine

/-! SUPPORT. The composite commands (R195 to R197): FINAL and ENCODE as the commands they stand for, and the symbol they
leave. -/
namespace Sys2Proof.Machine

variable {s : State}

/-! FINAL (R195). -/

@[simp] theorem finalState_mask (s : State) : (finalState s).mask = s.best :=
  (BitVec.ofNat_toNat 3 s.best).trans (BitVec.setWidth_eq s.best)

theorem best_le (s : State) : s.best.toNat ≤ 7 := Nat.le_of_lt_succ s.best.isLt

theorem exec_final_of_running (he : s.Running) : exec .final s = .next (finalState s) :=
  (execFinal.eq_1 s).trans (command_of_ok he rfl)

@[simp] theorem finalState_nmod (s : State) : (finalState s).nmod = s.nmod := by
  rw [State.nmod, State.nmod, finalState_version]

@[simp] theorem finalState_penalty (s : State) : (finalState s).penalty = s.penalty := by
  funext m
  rw [State.penalty, State.penalty, finalState_pen]

theorem finalState_frame (s : State) :
    finalState s = { s with mat := (finalState s).mat, mask := s.best, final := true } :=
  congrArg (fun m => { finalState s with mask := m }) (finalState_mask s)

/-- Settles O56: BEST is a mask index, so the BUILD completes and WRFMT runs after it. -/
theorem finalIsBuildBestThenWrfmt : Obligations.FinalIsBuildBestThenWrfmt := by
  intro s he
  exact ⟨decode_of_encode_eq rfl rfl, buildState s.best.toNat s, finalState s, exec_build_of_running he (best_le s),
    exec_wrfmt_of_running (s := buildState s.best.toNat s) he, exec_final_of_running he, finalState_frame s⟩

/-! ENCODE (R196). -/

/-- SELVER's version holds the payload exactly when some version does (R115). -/
theorem selverOverflows_iff_selectVersion (l : BitVec 2) (n : Nat) :
    selverOverflows l n = true ↔ printedCapacity (selectVersion l n) l < n := by
  obtain ⟨hmin, hmax⟩ := selectVersion_mem l n
  refine ⟨fun h => selverOverflows_iff.1 h _ hmin hmax, fun h => ?_⟩
  rw [← capacity_eq_printedCapacity _ hmax hmin] at h
  obtain ⟨hfits, -⟩ | ⟨hovf, -⟩ := selectVersion_cases l n
  · exact absurd h (Nat.not_lt.2 hfits)
  · exact hovf

/-- PACK after SELVER finds OVF as it leaves it (R196). -/
theorem ovf_packState_selverState (s : State) : (packState (selverState s)).ovf = (selverState s).ovf := by
  have hversion : (selverState s).version.toNat = selectVersion s.level s.ilen.toNat :=
    toNat_ofNat_of_le_maxVersion (selectVersion_mem s.level s.ilen.toNat).2
  rw [Bool.eq_iff_iff, ovf_packState_iff (selverState_legalVersion s), hversion]
  exact (selverOverflows_iff_selectVersion s.level s.ilen.toNat).symm

/-- RSENC does not fault, so ENCODE completes with its six stages (R135, R196). -/
theorem exists_exec_encode (he : s.Running) : ∃ u, rsencState (packState (selverState s)) = .ok u ∧
    exec .encode s = .next (finalState (evalState (ilvState u))) := by
  obtain ⟨u, hu⟩ := rsencState_ok (packState (selverState s))
  refine ⟨u, hu, (execEncode.eq_1 s).trans (command_of_ok he ?_)⟩
  rw [encodeState, hu]

/-- RSENC writes neither ERR nor OVF nor VERSION (R134). -/
theorem rsencState_err_ovf_version {t : State} (h : rsencState s = .ok t) :
    t.err = s.err ∧ t.ovf = s.ovf ∧ t.version = s.version := by
  obtain ⟨es, -, rfl⟩ := rsencState_eq h
  exact ⟨rfl, rfl, rfl⟩

/-- Settles O57: RSENC does not fault and each stage leaves ERR at 0, so the next one runs as its command does. -/
theorem encodeIsTheSixStages : Obligations.EncodeIsTheSixStages := by
  intro s he
  obtain ⟨u, hu, hencode⟩ := exists_exec_encode he
  obtain ⟨herr, hovf, -⟩ := rsencState_err_ovf_version hu
  have heu : u.Running := herr.trans he
  have hilv : (ilvState u).Running := (ilvState_err u).trans heu
  have heval : (evalState (ilvState u)).Running := (evalState_err _).trans hilv
  refine ⟨decode_of_encode_eq rfl rfl, selverState s, packState (selverState s), u, ilvState u, evalState (ilvState u),
    finalState (evalState (ilvState u)), (execSelver.eq_1 s).trans (command_of_ok he rfl),
    (execPack.eq_1 _).trans (command_of_ok he rfl), (execRsenc.eq_1 _).trans (command_of_ok he hu),
    (execIlv.eq_1 u).trans (command_of_ok heu rfl), exec_eval_of_running hilv, exec_final_of_running heval, hencode,
    (finalState_err _).trans heval, ?_, congrArg State.final (finalState_frame _), ?_⟩
  · rw [finalState_ovf, evalState_ovf, ilvState_ovf, hovf, ovf_packState_selverState]
  · rw [finalState_res, finalState_best, res_evalState]

/-! The finished symbol (R197). -/

theorem buildState_legalVersion (hs : s.LegalVersion) (m : Nat) : (buildState m s).LegalVersion := hs

theorem read_buildState_eq_unset_iff (he : s.Running) (hs : s.LegalVersion) {m : Nat} (hm : m ≤ 7) (r c : Nat) :
    (buildState m s).mat.read r c = .unset ↔ ¬(r < s.nmod ∧ c < s.nmod) := by
  obtain ⟨u, hu, hcells⟩ := buildSetsEveryCellOfTheSymbol s m he hs hm
  cases (exec_build_of_running he hm).symm.trans hu
  exact hcells r c

/-- A format or version cell holds a bit, so it is light or dark. -/
theorem read_wrfmtState_ne_unset (hs : s.LegalVersion) {r c : Nat}
    (hp : (r, c) ∈ formatCells s.nmod ∨ (r, c) ∈ versionCells s.version.toNat) :
    (wrfmtState s).mat.read r c ≠ .unset := by
  obtain hp | hp := hp
  · obtain ⟨i, hi, hp⟩ := mem_formatCells_iff_exists.1 hp
    exact read_wrfmtState_format hs hi hp ▸ colour_ne_unset _
  · obtain ⟨h7, i, hi, hp⟩ := mem_versionCells_iff_exists.1 hp
    exact read_wrfmtState_version hs h7 hi hp ▸ colour_ne_unset _

/-- FINAL leaves a cell that holds neither word as BUILD leaves it (R194, R195). -/
theorem read_finalState_of_notMem (s : State) {r c : Nat}
    (h : ¬((r, c) ∈ formatCells s.nmod ∨ (r, c) ∈ versionCells s.version.toNat)) :
    (finalState s).mat.read r c = (buildState s.best.toNat s).mat.read r c :=
  read_wrfmtState_of_notMem (buildState s.best.toNat s) (not_or.1 h).1 (not_or.1 h).2

theorem read_finalState_eq_unset_iff (he : s.Running) (hs : s.LegalVersion) (r c : Nat) :
    (finalState s).mat.read r c = .unset ↔ ¬(r < s.nmod ∧ c < s.nmod) := by
  by_cases hp : (r, c) ∈ formatCells s.nmod ∨ (r, c) ∈ versionCells s.version.toNat
  · have hset : (finalState s).mat.read r c ≠ .unset :=
      read_wrfmtState_ne_unset (buildState_legalVersion hs s.best.toNat) hp
    have hin : r < s.nmod ∧ c < s.nmod := isReserved_lt hs.1 (isReserved_eq_true.2 (.inr hp))
    exact iff_of_false hset (not_not.2 hin)
  · rw [read_finalState_of_notMem s hp, read_buildState_eq_unset_iff he hs (best_le s)]

/-- The corners hold no format or version cell (R162(a)). -/
theorem read_finalState_finder (hs : s.LegalVersion) {w : CellWrite} (hw : w ∈ finderWrites s.nmod) :
    (finalState s).mat.read w.1.1 w.1.2 = w.2 := by
  obtain ⟨h1, h10⟩ := hs
  obtain ⟨hgrid, hfinder⟩ := (paints_finder (moduleCount_ge h1) w.1.1 w.1.2 w.2).1 hw
  obtain ⟨hfree, -⟩ := patternCell_of_finderCell h1 h10 hgrid hfinder
  rw [read_finalState_of_notMem s fun hp => Bool.eq_false_iff.1 hfree (isReserved_eq_true.2 (.inr hp))]
  exact read_builtMatrix_finder h1 h10 hw

/-- The dark module is no format or version cell (R194). -/
theorem read_finalState_darkModule (hs : s.LegalVersion) : (finalState s).mat.read (s.nmod - 8) 8 = .dark := by
  obtain ⟨h1, h10⟩ := hs
  have hn : 21 ≤ s.nmod := moduleCount_ge h1
  have hfree : ¬((s.nmod - 8, 8) ∈ formatCells s.nmod ∨ (s.nmod - 8, 8) ∈ versionCells s.version.toNat) := by
    rw [mem_formatCells hn, mem_versionCells, ← nmod_eq_moduleCount]
    omega
  rw [read_finalState_of_notMem s hfree]
  exact read_builtMatrix_darkModule h1 h10

/-- Settles O58: FINAL completes the symbol of the version that SELVER chose, with the mask that EVAL chose. -/
theorem encodeLeavesAFinishedSymbol : Obligations.EncodeLeavesAFinishedSymbol := by
  intro s he
  obtain ⟨u, hu, hencode⟩ := exists_exec_encode he
  obtain ⟨herr, -, hversion⟩ := rsencState_err_ovf_version hu
  have hrunning : (evalState (ilvState u)).Running := by
    rw [State.Running, evalState_err, ilvState_err, herr, packState_err, selverState_err]
    exact he
  have hlegal : (evalState (ilvState u)).LegalVersion := by
    rw [State.LegalVersion, evalState_version, ilvState_version, hversion, packState_version]
    exact selverState_legalVersion s
  have hbest := isBestBelow_best_evalState (ilvState u)
  -- What FINAL leaves does not depend on how its state came about.
  generalize evalState (ilvState u) = e at hencode hrunning hlegal hbest
  refine ⟨finalState e, hencode, ?_⟩
  rw [State.LegalVersion, finalState_version, finalState_nmod, finalState_mask, finalState_best, finalState_penalty]
  exact ⟨hlegal, read_finalState_eq_unset_iff hrunning hlegal, fun w hw => read_finalState_finder hlegal hw,
    read_finalState_darkModule hlegal, rfl, hbest.minimal, hbest.least⟩

end Sys2Proof.Machine

/-! SUPPORT. System and readback commands (47_system_readback.md): NOP and SRST, which no state can stop, the register that
RDCSR's number names, and the commands that read a buffer or the matrix behind a range check. -/
namespace Sys2Proof.Machine

/-! The words of the commands (R63). -/

theorem encode_rdcsr (n : Nat) : encode (.rdcsr n) = word (0x02000000 + n) :=
  encode_eq_word (by simp only [opcodeOf, operandBits]; omega)

theorem encode_rdi (k : Nat) : encode (.rdi k) = word (0x50000000 + k) :=
  encode_eq_word (by simp only [opcodeOf, operandBits]; omega)

theorem encode_rdd (k : Nat) : encode (.rdd k) = word (0x51000000 + k) :=
  encode_eq_word (by simp only [opcodeOf, operandBits]; omega)

theorem encode_rdec (k : Nat) : encode (.rdec k) = word (0x52000000 + k) :=
  encode_eq_word (by simp only [opcodeOf, operandBits]; omega)

theorem encode_rdcw (k : Nat) : encode (.rdcw k) = word (0x53000000 + k) :=
  encode_eq_word (by simp only [opcodeOf, operandBits]; omega)

theorem encode_rdmod (r c : Nat) : encode (.rdmod r c) = word (0x54000000 + r * 256 + c) :=
  encode_eq_word (by simp only [opcodeOf, operandBits]; omega)

/-! NOP and SRST (R205, R206). -/

/-- NOP is discarded in the FAULT state and has no effect elsewhere. -/
theorem exec_nop (s : State) : exec .nop s = .next s := by
  by_cases he : s.err = 0
  · exact (execNop.eq_1 s).trans (command_of_ok he rfl)
  · exact exec_of_faulted nofun he

/-- The reset transition keeps only what the host is going to drive, which R30 does not speak of. -/
theorem toReset_atReset (s : State) : s.toReset.AtReset := { reset_atReset with }

/-- Settles O25: running and FAULT state are the two cases of `exec_nop`. -/
theorem nopChangesNothing : Obligations.NopChangesNothing := ⟨decode_of_encode_eq rfl rfl, exec_nop⟩

/-- Settles O9: the gate of the FAULT state does not stand before SRST. -/
theorem srstResetsEverything : Obligations.SrstResetsEverything :=
  ⟨decode_of_encode_eq rfl rfl, fun s => ⟨s.toReset, exec_srst s, toReset_atReset s, rfl⟩⟩

/-! The registers that RDCSR reads (R21, R208). -/

section
variable {s : State} {n : Nat}

theorem status_of_running (he : s.Running) :
    s.status = word ((if s.final then 4 else 0) + (if s.ovf then 2 else 0)) := by
  rw [State.status, (State.faulted_eq_false_iff s).2 he]
  cases s.final <;> cases s.ovf <;> rfl

theorem dtot_eq_printed (hs : s.LegalVersion) : s.dtot = tableEntry dtotRows s.version.toNat s.level := by
  obtain ⟨-, -, hdtot, -⟩ := layout_printed s.version.toNat hs.2 hs.1 s.level
  exact hdtot

/-- Number by number: only STATUS, ERR and DTOT are stored otherwise than they are listed. -/
theorem csr_of_mem_csrValues (he : s.Running) (hs : s.LegalVersion) : ∀ e ∈ s.csrValues, s.csr e.1 = some e.2 := by
  have hstatus : s.csr 0x00 = some (word ((if s.final then 4 else 0) + (if s.ovf then 2 else 0))) :=
    congrArg some (status_of_running he)
  have herr : s.csr 0x01 = some 0 := congrArg (fun e => some (zext e)) he
  have hdtot : s.csr 0x09 = some (word (tableEntry dtotRows s.version.toNat s.level)) :=
    congrArg (fun d => some (word d)) (dtot_eq_printed hs)
  simp only [State.csrValues, List.forall_mem_cons]
  exact ⟨hstatus, herr, rfl, rfl, rfl, rfl, rfl, rfl, rfl, hdtot, rfl, rfl, rfl, rfl, rfl, rfl, rfl, rfl, rfl, rfl, rfl, rfl,
    List.forall_mem_nil _⟩

theorem mem_csrValues_fst : n ∈ s.csrValues.map Prod.fst ↔ csrAssigned n = true := by
  simp only [State.csrValues, List.map_cons, List.map_nil, List.mem_cons, List.not_mem_nil, or_false, csrAssigned,
    Bool.or_eq_true, Bool.and_eq_true, decide_eq_true_eq]
  constructor
  · omega
  · omega

/-- The assigned numbers are those that have a register. -/
theorem isSome_csr (s : State) (n : Nat) : (s.csr n).isSome = csrAssigned n := by
  unfold State.csr
  split
  case h_23 => -- `n` is none of the numbers that `csr` lists
    simp only [imp_false] at *
    simp only [csrAssigned, Option.isSome_none, Bool.false_eq, Bool.or_eq_false_iff, Bool.and_eq_false_iff,
      decide_eq_false_iff_not]
    omega
  all_goals rfl

theorem csr_eq_none_iff : s.csr n = none ↔ csrAssigned n = false := by
  rw [← isSome_csr s n, Option.isSome_eq_false_iff, Option.isNone_iff_eq_none]

theorem exec_rdcsr_of_some (he : s.Running) {v : Word} (h : s.csr n = some v) :
    exec (.rdcsr n) s = .next (s.setRes v) :=
  (execRdcsr.eq_1 n s).trans (command_of_ok he (by rw [h]))

theorem exec_rdcsr_of_none (he : s.Running) (h : s.csr n = none) :
    exec (.rdcsr n) s = .next (s.raise .range (encode (.rdcsr n))) :=
  (execRdcsr.eq_1 n s).trans (command_of_error he (by rw [h]))

end

/-- Settles O26: the listed value is the register of its number, and an unlisted number has no register. -/
theorem rdcsrReadsTheNumberedRegister : Obligations.RdcsrReadsTheNumberedRegister := by
  intro s he hs
  refine ⟨fun e hmem => exec_rdcsr_of_some he (csr_of_mem_csrValues he hs e hmem), fun n _ => mem_csrValues_fst.symm,
    fun n hn => ⟨decode_of_encode_eq (encode_rdcsr n) (decide_eq_true hn), fun hfree => ?_⟩⟩
  rw [← encode_rdcsr]
  exact exec_rdcsr_of_none he (csr_eq_none_iff.2 hfree)

/-! The commands that read one cell (R209 to R213). -/

/-- A command that reads the byte at index `k` of a buffer whose last index is `last`, with command word `w`. -/
theorem decode_exec_byteRead {i : Instr} {s : State} {v : State → Word} {w : Word} {k last : Nat}
    (hi : exec i s = command (encode i) s fun s => inRange (k < last + 1) (s.setRes (v s))) (he : s.Running)
    (hw : encode i = w) (hwf : i.wf = true) :
    decode w = .ok i ∧ (k ≤ last → exec i s = .next { s with res := v s }) ∧
      (last < k → exec i s = .next { s with err := 3, ecmd := w }) := by
  refine ⟨decode_of_encode_eq hw hwf, fun hin => ?_, fun hout => ?_⟩
  · exact exec_of_inRange hi he (decide_eq_true (Nat.lt_succ_of_le hin))
  · rw [← hw]
    exact exec_of_not_inRange hi he (decide_eq_false (Nat.not_lt.2 hout))

/-- Settles O27: the four commands differ in the buffer and its last index. -/
theorem bufferReadbackGivesTheByte : Obligations.BufferReadbackGivesTheByte := by
  intro s k he hk
  have hfits : fitsIdx9 k = true := decide_eq_true hk
  exact ⟨decode_exec_byteRead (i := .rdi k) (execRdi.eq_1 k s) he (encode_rdi k) hfits,
    decode_exec_byteRead (i := .rdd k) (execRdd.eq_1 k s) he (encode_rdd k) hfits,
    decode_exec_byteRead (i := .rdec k) (execRdec.eq_1 k s) he (encode_rdec k) hfits,
    decode_exec_byteRead (i := .rdcw k) (execRdcw.eq_1 k s) he (encode_rdcw k) hfits⟩

theorem exec_rdmod_of_le {s : State} {r c : Nat} {cell : Module} (he : s.Running) (hr : r ≤ 56) (hc : c ≤ 56)
    (hcell : s.mat.read r c = cell) : exec (.rdmod r c) s = .next (s.setRes (word cell.code)) := by
  rw [← hcell]
  refine exec_of_inRange (i := .rdmod r c) (execRdmod.eq_1 r c s) he ?_
  rw [Bool.and_eq_true, decide_eq_true_eq, decide_eq_true_eq]
  exact ⟨Nat.lt_succ_of_le hr, Nat.lt_succ_of_le hc⟩

theorem exec_rdmod_of_lt {s : State} {r c : Nat} (he : s.Running) (hout : 56 < r ∨ 56 < c) :
    exec (.rdmod r c) s = .next (s.raise .range (encode (.rdmod r c))) := by
  refine exec_of_not_inRange (execRdmod.eq_1 r c s) he ?_
  rw [Bool.and_eq_false_iff, decide_eq_false_iff_not, decide_eq_false_iff_not]
  exact hout.imp Nat.not_lt.2 Nat.not_lt.2

/-- Settles O28: the cell is read by its code, inside the storage bound. -/
theorem rdmodGivesTheCellCode : Obligations.RdmodGivesTheCellCode := by
  intro s r c he hr hc
  have hfits : (fitsIdx6 r && fitsIdx6 c) = true := Bool.and_eq_true_iff.2 ⟨decide_eq_true hr, decide_eq_true hc⟩
  refine ⟨decode_of_encode_eq (encode_rdmod r c) hfits, fun hr56 hc56 => ?_, fun hout => ?_⟩
  · exact ⟨exec_rdmod_of_le he hr56 hc56, exec_rdmod_of_le he hr56 hc56, exec_rdmod_of_le he hr56 hc56⟩
  · rw [← encode_rdmod]
    exact exec_rdmod_of_lt he hout

end Sys2Proof.Machine

/-! SUPPORT. Faults (60_exceptions.md): the operands to which each fault code is laid (R237, R239, R242), and that the ERR a
command leaves names one of them, command by command. -/
namespace Sys2Proof.Machine

/-- The condition on the operands of a command under which its rule raises the fault; E_ILLEGAL is raised for a word that is
no command (R238). -/
def State.faultCause (s : State) (i : Instr) : FaultCode → Prop
  | .domain => s.formsLogOfZero i
  | .illegal => False
  | .range => s.outOfRange i
  | .plen => s.overLong i

theorem not_faultCause {s : State} {i : Instr} (hrange : ¬s.outOfRange i) (hlen : ¬s.overLong i)
    (hlog : ¬s.formsLogOfZero i) (c : FaultCode) : ¬s.faultCause i c := by
  cases c with
  | domain => exact hlog
  | illegal => exact id
  | range => exact hrange
  | plen => exact hlen

theorem forall_not_faultCause {s : State} {i : Instr} :
    (∀ c, ¬s.faultCause i c) ↔ ¬s.outOfRange i ∧ ¬s.overLong i ∧ ¬s.formsLogOfZero i :=
  ⟨fun h => ⟨h .range, h .plen, h .domain⟩, fun ⟨hrange, hlen, hlog⟩ => not_faultCause hrange hlen hlog⟩

theorem FaultCode.code_inj {c d : FaultCode} : c.code = d.code ↔ c = d := by
  cases c <;> cases d <;> decide

/-! The faults of the polynomial functions, for operands that need not be stripped. -/

theorem strip_strip (a : List Byte) : strip (strip a) = strip a := strip_of_isStripped (isStripped_strip a)

/-- R94, R95: the length is tested before the first product is formed, and then every coefficient is used. -/
theorem pmul_eq_error {a b : List Byte} {c : FaultCode} : pmul a b = .error c ↔ strip a ≠ [] ∧ strip b ≠ [] ∧
    (c = .plen ∧ Config.polyMax < (strip a).length + (strip b).length - 1 ∨
      c = .domain ∧ (strip a).length + (strip b).length - 1 ≤ Config.polyMax ∧ (0 ∈ strip a ∨ 0 ∈ strip b)) := by
  have hstrip : pmul a b = pmul (strip a) (strip b) := by rw [pmul, pmul, strip_strip, strip_strip]
  have ha := isStripped_strip a
  have hb := isStripped_strip b
  rw [hstrip]
  generalize strip a = a at *
  generalize strip b = b at *
  by_cases hnil : a = [] ∨ b = []
  · rw [pmul_nil hnil]
    exact iff_of_false nofun fun ⟨hane, hbne, _⟩ => hnil.elim hane hbne
  obtain ⟨hane, hbne⟩ := not_or.1 hnil
  by_cases hlong : Config.polyMax < a.length + b.length - 1
  · rw [pmul_plen ha hb hane hbne hlong, Except.error.injEq]
    exact ⟨fun hc => ⟨hane, hbne, .inl ⟨hc.symm, hlong⟩⟩, fun ⟨_, _, h⟩ =>
      h.elim (fun h => h.1.symm) fun ⟨_, hfits, _⟩ => absurd hlong (Nat.not_lt.2 hfits)⟩
  have hfits := Nat.not_lt.1 hlong
  by_cases h0 : 0 ∈ a ∨ 0 ∈ b
  · rw [pmul_domain ha hb hane hbne hfits h0, Except.error.injEq]
    exact ⟨fun hc => ⟨hane, hbne, .inr ⟨hc.symm, hfits, h0⟩⟩, fun ⟨_, _, h⟩ =>
      h.elim (fun h => absurd h.2 hlong) fun h => h.1.symm⟩
  · obtain ⟨h0a, h0b⟩ := not_or.1 h0
    obtain ⟨out, hout, -⟩ := pmul_ok hane hbne h0a h0b hfits
    rw [hout]
    exact iff_of_false nofun fun ⟨_, _, h⟩ => h.elim (fun h => hlong h.2) fun h => h0 h.2.2

/-- R96, R97: the divisor is empty, or a pass runs and the divisor holds a zero coefficient. -/
theorem pmod_eq_error {a b : List Byte} {c : FaultCode} : pmod a b = .error c ↔
    c = .domain ∧ (strip b = [] ∨ (strip b).length ≤ (strip a).length ∧ 0 ∈ strip b) := by
  have hstrip : pmod a b = pmod (strip a) (strip b) := by rw [pmod, pmod, strip_strip, strip_strip]
  have ha := isStripped_strip a
  have hb := isStripped_strip b
  rw [hstrip]
  generalize strip a = a at *
  generalize strip b = b at *
  by_cases hnil : b = []
  · rw [pmod_nil a hnil, Except.error.injEq, and_iff_left (.inl hnil)]
    exact eq_comm
  by_cases hlt : a.length < b.length
  · rw [pmod_of_length_lt ha hb hlt]
    exact iff_of_false nofun fun ⟨_, h⟩ => h.elim hnil fun h => Nat.not_le.2 hlt h.1
  by_cases h0 : 0 ∈ b
  · have hle := Nat.not_lt.1 hlt
    rw [pmod_error ha hb hle h0, Except.error.injEq, and_iff_left (.inr ⟨hle, h0⟩)]
    exact eq_comm
  · obtain ⟨r, hr, -⟩ := pmod_ok hnil (fun y hy hy0 => h0 (hy0 ▸ hy)) a
    rw [hr]
    exact iff_of_false nofun fun ⟨_, h⟩ => h.elim hnil fun h => h0 h.2

/-- The faults of pgen are those of its products. -/
theorem plen_or_domain_of_pgen {n : Nat} {c : FaultCode} (h : pgen n = .error c) : c = .plen ∨ c = .domain := by
  induction n with
  | zero => cases h
  | succ n ih =>
    rw [pgen] at h
    split at h
    · next hn => cases h; exact ih hn
    · obtain ⟨-, -, hc⟩ := pmul_eq_error.1 h
      exact hc.imp And.left And.left

/-! A range check that fails, in the words of R239. -/

theorem decide_le_eq_false {k n : Nat} : decide (k ≤ n) = false ↔ n < k := decide_eq_false_iff_not.trans Nat.not_le

theorem decide_lt_succ_eq_false {k n : Nat} : decide (k < n + 1) = false ↔ n < k :=
  decide_eq_false_iff_not.trans Nat.not_lt

/-! The ERR that a command leaves in a running block, for each shape of a command. -/

section
variable {i : Instr} {s t u : State} {c : FaultCode}

/-- A command that completes records no fault, and there is to be no cause. -/
theorem err_iff_of_complete (h : exec i s = .next t) (hu : exec i s = .next u) (hu0 : u.err = 0) (hc : ¬s.faultCause i c) :
    t.err = c.code ↔ s.faultCause i c := by
  obtain rfl : u = t := Host.Outcome.next.inj (hu.symm.trans h)
  rw [hu0]
  exact iff_of_false c.code_ne_zero.symm hc

theorem err_iff_of_total {g : State → State} (hi : exec i s = command (encode i) s fun s => .ok (g s)) (he : s.Running)
    (h : exec i s = .next t) (hg : (g s).err = s.err) (hc : ¬s.faultCause i c) : t.err = c.code ↔ s.faultCause i c :=
  err_iff_of_complete h (hi.trans (command_of_ok he rfl)) (hg.trans he) hc

/-- The fault a command leaves is the one its effect raises, where the effect itself does not write ERR. -/
theorem err_eq_code_iff_effect {f : State → Except FaultCode State} (hi : exec i s = command (encode i) s f)
    (he : s.Running) (h : exec i s = .next t) (hf : ∀ u, f s = .ok u → u.err = s.err) : t.err = c.code ↔ f s = .error c := by
  obtain ⟨hne, -⟩ | ⟨-, hok⟩ | ⟨-, d, herr, rfl⟩ := command_cases (hi.symm.trans h)
  · exact absurd he hne
  · rw [hf t hok, he, hok]
    exact iff_of_false c.code_ne_zero.symm nofun
  · rw [State.raise_err, FaultCode.code_inj, herr, Except.error.injEq]

theorem err_iff_of_inRange {ok : State → Bool} {g : State → State}
    (hi : exec i s = command (encode i) s fun s => inRange (ok s) (g s)) (he : s.Running) (h : exec i s = .next t)
    (hg : (g s).err = s.err) (hok : ok s = false ↔ s.outOfRange i) (hlen : ¬s.overLong i) (hlog : ¬s.formsLogOfZero i) :
    t.err = c.code ↔ s.faultCause i c := by
  have hf (u : State) (hu : inRange (ok s) (g s) = .ok u) : u.err = s.err := by
    obtain ⟨-, rfl⟩ := inRange_eq_ok.1 hu
    exact hg
  rw [err_eq_code_iff_effect hi he h hf, inRange_eq_error, hok]
  cases c with
  | range => exact and_iff_left rfl
  | domain => exact iff_of_false nofun hlog
  | illegal => exact iff_of_false nofun id
  | plen => exact iff_of_false nofun hlen

theorem err_iff_of_storePoly {p : PReg} {r : State → Except FaultCode (List Byte)}
    (hi : exec i s = command (encode i) s fun s => storePoly s p (r s)) (he : s.Running) (h : exec i s = .next t) :
    t.err = c.code ↔ r s = .error c := by
  refine (err_eq_code_iff_effect hi he h fun u hu => ?_).trans storePoly_eq_error
  obtain ⟨v, -, rfl⟩ := storePoly_eq_ok.1 hu
  exact State.setPoly_err ..

end

/-! The commands that compute (R84, R100 to R103). -/

section
variable {s t : State} {c : FaultCode}

theorem err_glog (he : s.Running) {n : Byte} (h : exec (.glog n) s = .next t) :
    t.err = c.code ↔ s.faultCause (.glog n) c := by
  by_cases hn : n = 0
  · subst hn
    cases (exec_glog_zero_of_running he).symm.trans h
    rw [State.raise_err, FaultCode.code_inj]
    cases c with
    | domain => exact iff_of_true rfl rfl
    | illegal | range | plen => exact iff_of_false nofun id
  · have hlog : ¬s.formsLogOfZero (.glog n) := hn
    exact err_iff_of_complete h (exec_glog_of_running he hn) he (not_faultCause id id hlog c)

theorem err_ppush (he : s.Running) (hs : c = .plen → s.PolysLegal) {p : PReg} {b : Byte}
    (h : exec (.ppush p b) s = .next t) : t.err = c.code ↔ s.faultCause (.ppush p b) c := by
  have hpush : (if (s.poly p).length ≥ Config.polyMax then .error .plen else .ok (strip (s.poly p ++ [b])) :
      Except FaultCode (List Byte)) = .error c ↔ Config.polyMax ≤ (s.poly p).length ∧ c = .plen := by
    split
    · next hfull => rw [Except.error.injEq, and_iff_right hfull, eq_comm]
    · next hroom => exact iff_of_false nofun fun h => hroom h.1
  rw [err_iff_of_storePoly (exec_ppush p b s) he h, hpush]
  cases c with
  | plen => exact (and_iff_left rfl).trans ⟨fun hle => Nat.le_antisymm (hs rfl p).2 hle, Eq.ge⟩
  | domain | illegal | range => exact iff_of_false nofun id

theorem err_pmul (he : s.Running) (hs : c = .plen ∨ c = .domain → s.PolysLegal) {pd pa pb : PReg}
    (h : exec (.pmul pd pa pb) s = .next t) : t.err = c.code ↔ s.faultCause (.pmul pd pa pb) c := by
  rw [err_iff_of_storePoly (exec_pmul pd pa pb s) he h, pmul_eq_error]
  cases c with
  | illegal | range => simp [State.faultCause, State.outOfRange]
  | plen =>
    rw [strip_of_isStripped (hs (.inl rfl) pa).1, strip_of_isStripped (hs (.inl rfl) pb).1]
    simp [State.faultCause, State.overLong]
  | domain =>
    rw [strip_of_isStripped (hs (.inr rfl) pa).1, strip_of_isStripped (hs (.inr rfl) pb).1]
    simp [State.faultCause, State.formsLogOfZero]

theorem err_pmod (he : s.Running) (hs : c = .domain → s.PolysLegal) {pd pa pb : PReg}
    (h : exec (.pmod pd pa pb) s = .next t) : t.err = c.code ↔ s.faultCause (.pmod pd pa pb) c := by
  rw [err_iff_of_storePoly (exec_pmod pd pa pb s) he h, pmod_eq_error]
  cases c with
  | domain =>
    rw [strip_of_isStripped (hs rfl pa).1, strip_of_isStripped (hs rfl pb).1]
    exact and_iff_right rfl
  | illegal | range | plen => exact iff_of_false nofun id

/-- For n up to 255 pgen does not fault; beyond, in no word, it could only raise E_PLEN or E_DOMAIN. -/
theorem err_pgen (he : s.Running) {p : PReg} {n : Nat} (hn : c = .plen ∨ c = .domain → n ≤ 255)
    (h : exec (.pgen p n) s = .next t) : t.err = c.code ↔ s.faultCause (.pgen p n) c := by
  rw [err_iff_of_storePoly (exec_pgen p n s) he h]
  refine iff_of_false (fun herr => ?_) (not_faultCause id id id c)
  rw [pgen_eq_ok (hn (plen_or_domain_of_pgen herr))] at herr
  cases herr

theorem err_rdcsr (he : s.Running) {n : Nat} (h : exec (.rdcsr n) s = .next t) :
    t.err = c.code ↔ s.faultCause (.rdcsr n) c := by
  cases hn : s.csr n with
  | some v =>
    refine err_iff_of_complete h (exec_rdcsr_of_some he hn) he (not_faultCause (fun hfree => ?_) id id c)
    rw [csr_eq_none_iff.2 hfree] at hn
    cases hn
  | none =>
    cases (exec_rdcsr_of_none he hn).symm.trans h
    rw [State.raise_err, FaultCode.code_inj]
    cases c with
    | range => exact iff_of_true rfl (csr_eq_none_iff.1 hn)
    | domain | illegal | plen => exact iff_of_false nofun id

theorem err_rsenc (he : s.Running) (h : exec .rsenc s = .next t) : t.err = c.code ↔ s.faultCause .rsenc c := by
  obtain ⟨u, hu⟩ := rsencState_ok s
  obtain ⟨es, -, rfl⟩ := rsencState_eq hu
  exact err_iff_of_complete h ((execRsenc.eq_1 s).trans (command_of_ok he hu)) he (not_faultCause id id id c)

theorem err_encode (he : s.Running) (h : exec .encode s = .next t) : t.err = c.code ↔ s.faultCause .encode c := by
  obtain ⟨u, hu, rfl⟩ := exec_encode_of_running he h
  exact err_iff_of_complete h h ((Completes.encode hu).err_eq.trans he) (not_faultCause id id id c)

end

/-- In a running block ERR names the code exactly where its cause is there. For E_PLEN and E_DOMAIN the polynomial registers
have to hold legal values, and PGEN an operand that fits its field. -/
theorem err_eq_code_iff {i : Instr} {s t : State} {c : FaultCode} (he : s.Running)
    (hs : c = .plen ∨ c = .domain → i.wf = true ∧ s.PolysLegal) (h : exec i s = .next t) :
    t.err = c.code ↔ s.faultCause i c := by
  cases i with
  | srst => exact err_iff_of_complete h (exec_srst s) (State.toReset_err s) (not_faultCause id id id c)
  | nop => exact err_iff_of_complete h (exec_nop s) he (not_faultCause id id id c)
  | rdcsr n => exact err_rdcsr he h
  | gexp n => exact err_iff_of_complete h (exec_gexp_of_running he n) he (not_faultCause id id id c)
  | glog n => exact err_glog he h
  | rdexp k => exact err_iff_of_complete h (exec_rdexp_of_running he k) he (not_faultCause id id id c)
  | pclr p => exact err_iff_of_total (execPclr.eq_1 p s) he h (State.setPoly_err ..) (not_faultCause id id id c)
  | ppush p b => exact err_ppush he (fun hc => (hs (.inl hc)).2) h
  | pmul pd pa pb => exact err_pmul he (fun hc => (hs hc).2) h
  | pmod pd pa pb => exact err_pmod he (fun hc => (hs (.inr hc)).2) h
  | pgen p n => exact err_pgen he (fun hc => Nat.le_of_lt_succ (of_decide_eq_true (hs hc).1)) h
  | plen p => exact err_iff_of_total (execPlen.eq_1 p s) he h rfl (not_faultCause id id id c)
  | pget p k => exact err_iff_of_inRange (execPget.eq_1 p k s) he h rfl (decide_eq_false_iff_not.trans Nat.not_lt) id id
  | iclr => exact err_iff_of_total (execIclr.eq_1 s) he h rfl (not_faultCause id id id c)
  | ipush b => exact err_iff_of_total (execIpush.eq_1 b s) he h rfl (not_faultCause id id id c)
  | setlvl k => exact err_iff_of_inRange (execSetlvl.eq_1 k s) he h rfl decide_le_eq_false id id
  | setver v =>
    have hout : (decide (1 ≤ v) && decide (v ≤ Config.maxVersion)) = false ↔ v = 0 ∨ 10 < v :=
      Bool.and_eq_false_iff.trans (or_congr (decide_le_eq_false.trans Nat.lt_one_iff) decide_le_eq_false)
    exact err_iff_of_inRange (execSetver.eq_1 v s) he h rfl hout id id
  | wrd k b => exact err_iff_of_inRange (execWrd.eq_1 k b s) he h rfl decide_lt_succ_eq_false id id
  | selver => exact err_iff_of_total (execSelver.eq_1 s) he h rfl (not_faultCause id id id c)
  | pack => exact err_iff_of_total (execPack.eq_1 s) he h rfl (not_faultCause id id id c)
  | rsenc => exact err_rsenc he h
  | ilv => exact err_iff_of_total (execIlv.eq_1 s) he h rfl (not_faultCause id id id c)
  | build m => exact err_iff_of_inRange (execBuild.eq_1 m s) he h rfl decide_le_eq_false id id
  | score => exact err_iff_of_complete h (exec_score_of_running he) he (not_faultCause id id id c)
  | eval => exact err_iff_of_complete h (exec_eval_of_running he) ((evalState_err s).trans he) (not_faultCause id id id c)
  | wrfmt => exact err_iff_of_complete h (exec_wrfmt_of_running he) he (not_faultCause id id id c)
  | final => exact err_iff_of_complete h (exec_final_of_running he) he (not_faultCause id id id c)
  | encode => exact err_encode he h
  | fmt d => exact err_iff_of_inRange (execFmt.eq_1 d s) he h rfl decide_le_eq_false id id
  | vinf d => exact err_iff_of_inRange (execVinf.eq_1 d s) he h rfl decide_le_eq_false id id
  | rdi k => exact err_iff_of_inRange (execRdi.eq_1 k s) he h rfl decide_lt_succ_eq_false id id
  | rdd k => exact err_iff_of_inRange (execRdd.eq_1 k s) he h rfl decide_lt_succ_eq_false id id
  | rdec k => exact err_iff_of_inRange (execRdec.eq_1 k s) he h rfl decide_lt_succ_eq_false id id
  | rdcw k => exact err_iff_of_inRange (execRdcw.eq_1 k s) he h rfl decide_lt_succ_eq_false id id
  | rdmod row col =>
    have hout : (decide (row < Config.matSize) && decide (col < Config.matSize)) = false ↔ 56 < row ∨ 56 < col :=
      Bool.and_eq_false_iff.trans (or_congr decide_lt_succ_eq_false decide_lt_succ_eq_false)
    exact err_iff_of_inRange (execRdmod.eq_1 row col s) he h rfl hout id id

end Sys2Proof.Machine

/-! SUPPORT. The outcomes of commands and steps (R65, R237 to R244, R260), from the causes of the fault codes and from what a
step does with the entry it samples. -/
namespace Sys2Proof.Machine

section
variable {i : Instr} {s t : State}

theorem Completes.ecmd_eq (h : Completes s i t) : t.ecmd = s.ecmd := by
  cases h with
  | encode hu =>
    obtain ⟨es, -, rfl⟩ := rsencState_eq hu
    exact (finalState_ecmd _).trans (evalState_ecmd _)
  | _ => simp

/-- In a running block a command completes, or makes the fault entry; E_ILLEGAL has no cause in a command. -/
theorem exec_complete_or_fault (he : s.Running) (hi : i ≠ .srst) (h : exec i s = .next t) :
    (t.err = 0 ∧ t.ecmd = s.ecmd) ∨
      ((t.err = 1 ∨ t.err = 3 ∨ t.err = 4) ∧ t = { s with err := t.err, ecmd := encode i }) := by
  cases exec_answers hi h with
  | discarded hne => exact absurd he hne
  | complete _ ht => exact .inl ⟨ht.err_eq.trans he, ht.ecmd_eq⟩
  | fault _ c =>
    refine .inr ⟨?_, rfl⟩
    cases c with
    | domain => exact .inl rfl
    | range => exact .inr (.inl rfl)
    | plen => exact .inr (.inr rfl)
    | illegal => exact ((err_eq_code_iff (c := .illegal) he nofun h).1 rfl).elim

/-- A command completes exactly where no cause of a fault is there. -/
theorem err_eq_zero_iff (he : s.Running) (hs : s.PolysLegal) (hwf : i.wf = true) (hi : i ≠ .srst) (h : exec i s = .next t) :
    t.err = 0 ↔ ¬s.outOfRange i ∧ ¬s.overLong i ∧ ¬s.formsLogOfZero i := by
  have hcode (c : FaultCode) : t.err = c.code ↔ s.faultCause i c := err_eq_code_iff he (fun _ => ⟨hwf, hs⟩) h
  rw [← forall_not_faultCause]
  cases exec_answers hi h with
  | discarded hne => exact absurd he hne
  | complete _ ht =>
    have ht0 : t.err = 0 := ht.err_eq.trans he
    exact iff_of_true ht0 fun c hc => c.code_ne_zero (((hcode c).2 hc).symm.trans ht0)
  | fault _ c => exact iff_of_false c.code_ne_zero fun hnone => hnone c ((hcode c).1 rfl)

end

/-- Settles O16. -/
theorem faultingCommandChangesOnlyErrAndEcmd : Obligations.FaultingCommandChangesOnlyErrAndEcmd :=
  fun _ _ _ he hi h => exec_complete_or_fault he hi h

/-- Settles O17: no range check rests on a polynomial register holding a legal value. -/
theorem rangeFaultExactlyForTheListedOperands : Obligations.RangeFaultExactlyForTheListedOperands :=
  fun _ _ _ he _ h => err_eq_code_iff (c := .range) he nofun h

/-- Settles O18. -/
theorem lengthFaultExactlyWhenOver256 : Obligations.LengthFaultExactlyWhenOver256 :=
  fun _ _ _ he hs hwf h => err_eq_code_iff (c := .plen) he (fun _ => ⟨hwf, hs⟩) h

/-- Settles O19. -/
theorem domainFaultExactlyInTheFourCases : Obligations.DomainFaultExactlyInTheFourCases :=
  fun _ _ _ he hs hwf h => err_eq_code_iff (c := .domain) he (fun _ => ⟨hwf, hs⟩) h

/-! Steps. -/

section
variable {s : State} {p : PortIn} {rest : List PortIn}

theorem step_rst (hs : s.host = p :: rest) (hr : p.rst = true) : step s = .next (State.toReset { s with host := rest }) :=
  (step_cons hs).trans (samplePorts_rst hr)

theorem step_idle (hs : s.host = p :: rest) (hr : p.rst = false) (hv : p.cmdValid = false) :
    step s = .next { s with host := rest } :=
  (step_cons hs).trans (samplePorts_idle hr hv)

theorem step_word (hs : s.host = p :: rest) (hr : p.rst = false) (hv : p.cmdValid = true) :
    step s = acceptWord p.cmdWord { s with host := rest } :=
  (step_cons hs).trans (samplePorts_word hr hv)

end

/-- Settles O10. -/
theorem resetInputResetsAndIdlePortsDoNothing : Obligations.ResetInputResetsAndIdlePortsDoNothing := by
  refine fun s => ⟨fun p rest hs => ⟨fun hr => ?_, step_idle hs⟩, step_nil⟩
  have hstep := step_rst hs hr
  exact ⟨by rw [cmdReady, hr]; rfl, _, hstep, toReset_atReset _, rfl, hstep.trans (exec_srst _).symm⟩

/-- Settles O8: the gate stands before the decoder, and again in the command. -/
theorem faultStateDiscardsEveryWordButSrst : Obligations.FaultStateDiscardsEveryWordButSrst := fun _ _ _ hs he hw =>
  ⟨(step_word hs rfl rfl).trans (acceptWord_of_faulted he hw), rfl, fun _ hi => exec_of_faulted hi he⟩

/-- Settles O15: every other step keeps ERR. -/
theorem onlyResetAndSrstLeaveTheFaultState : Obligations.OnlyResetAndSrstLeaveTheFaultState := by
  intro s t he h ht
  obtain ⟨-, hstep⟩ | ⟨p, rest, hs, ⟨hr, hstep⟩ | ⟨-, -, hstep⟩ | ⟨-, hv, hstep⟩⟩ := step_cases s
  · cases hstep.symm.trans h
    exact absurd ht he
  · cases hstep.symm.trans h
    exact ⟨toReset_atReset _, p, rest, hs, .inl hr⟩
  · cases hstep.symm.trans h
    exact absurd ht he
  · by_cases hw : p.cmdWord = srstWord
    · rw [hw, acceptWord_srst] at hstep
      cases hstep.symm.trans h
      exact ⟨toReset_atReset _, p, rest, hs, .inr ⟨hv, hw⟩⟩
    · rw [acceptWord_of_faulted (s := { s with host := rest }) he hw] at hstep
      cases hstep.symm.trans h
      exact absurd ht he

/-! The three outcomes. -/

theorem exec_next {i : Instr} (hi : i ≠ .srst) (s : State) : ∃ t, exec i s = .next t := by
  obtain ⟨f, hf⟩ := exec_is_command hi
  rw [hf]
  exact command_next _ _ _

/-- The outcome `t` of an accepted word other than SRST, in the state `s` that holds the rest of what the host drives. -/
structure WordOutcome (w : Word) (s t : State) : Prop where
  discarded : s.err ≠ 0 → t = s
  answered : s.err = 0 → (t.err = 0 ∧ t.ecmd = s.ecmd ∧ ∃ i, decode w = .ok i) ∨
    ((t.err = 1 ∨ t.err = 2 ∨ t.err = 3 ∨ t.err = 4) ∧ t = { s with err := t.err, ecmd := w })
  completes_iff : s.err = 0 → s.PolysLegal → (t.err = 0 ↔ ∃ i, decode w = .ok i ∧
    ¬s.outOfRange i ∧ ¬s.overLong i ∧ ¬s.formsLogOfZero i)
  host_eq : t.host = s.host

theorem WordOutcome.of_faulted {w : Word} {s : State} (he : s.err ≠ 0) : WordOutcome w s s where
  discarded _ := rfl
  answered h := absurd h he
  completes_iff h := absurd h he
  host_eq := rfl

theorem WordOutcome.of_decode_error {w : Word} {s : State} {e : DecodeError} (he : s.err = 0) (hd : decode w = .error e) :
    WordOutcome w s (s.raise .illegal w) where
  discarded h := absurd he h
  answered _ := .inr ⟨.inr (.inl rfl), rfl⟩
  completes_iff _ _ := iff_of_false FaultCode.illegal.code_ne_zero fun ⟨_, hi, _⟩ => by cases hd.symm.trans hi
  host_eq := rfl

theorem WordOutcome.of_exec {w : Word} {i : Instr} {s t : State} (he : s.err = 0) (hd : decode w = .ok i) (hi : i ≠ .srst)
    (h : exec i s = .next t) : WordOutcome w s t where
  discarded hne := absurd he hne
  answered _ := by
    obtain ⟨ht, hecmd⟩ | ⟨hcode, heq⟩ := exec_complete_or_fault he hi h
    · exact .inl ⟨ht, hecmd, i, hd⟩
    · rw [encode_of_decode hd] at heq
      exact .inr ⟨hcode.imp_right .inr, heq⟩
  completes_iff _ hs := by
    rw [err_eq_zero_iff he hs (wf_of_decode hd) hi h]
    refine ⟨fun hnone => ⟨i, hd, hnone⟩, fun ⟨j, hj, hnone⟩ => ?_⟩
    cases hd.symm.trans hj
    exact hnone
  host_eq := exec_frame State.host hi h (fun _ _ => rfl) (·.host_eq)

/-- Discarded, illegal, or the command it decodes to (R65). -/
theorem acceptWord_outcome {w : Word} (s : State) (hw : w ≠ srstWord) :
    ∃ t, acceptWord w s = .next t ∧ WordOutcome w s t := by
  by_cases he : s.err = 0
  · cases hd : decode w with
    | error e => exact ⟨_, acceptWord_of_error he hd, .of_decode_error he hd⟩
    | ok i =>
      have hi : i ≠ .srst := by
        rintro rfl
        exact hw (eq_srstWord_of_decode hd)
      obtain ⟨t, ht⟩ := exec_next hi s
      exact ⟨t, (acceptWord_of_ok he hd).trans ht, .of_exec he hd hi ht⟩
  · exact ⟨s, acceptWord_of_faulted he hw, .of_faulted he⟩

/-- Settles O14: commands by the causes of the fault codes, steps by the entry sampled. -/
theorem everyCommandAndStepHasOneOfTheThreeOutcomes : Obligations.EveryCommandAndStepHasOneOfTheThreeOutcomes := by
  refine ⟨fun i s hwf hi => ?_, fun s => step_nil, fun s p rest hs => ?_⟩
  · obtain ⟨t, h⟩ := exec_next hi s
    refine ⟨t, h, fun he => ?_, fun he => exec_complete_or_fault he hi h, fun he hs => err_eq_zero_iff he hs hwf hi h⟩
    exact (Host.Outcome.next.inj ((exec_of_faulted hi he).symm.trans h)).symm
  cases hr : p.rst with
  | true => exact ⟨_, step_rst hs hr, rfl, fun _ => toReset_atReset _, nofun, nofun, nofun⟩
  | false =>
    cases hv : p.cmdValid with
    | false => exact ⟨_, step_idle hs hr hv, rfl, nofun, fun _ _ => rfl, nofun, nofun⟩
    | true =>
      have hstep := step_word hs hr hv
      by_cases hw : p.cmdWord = srstWord
      · rw [hw, acceptWord_srst] at hstep
        exact ⟨_, hstep, rfl, nofun, nofun, fun _ _ _ => toReset_atReset _, fun _ _ hne => absurd hw hne⟩
      · obtain ⟨t, ht, hout⟩ := acceptWord_outcome { s with host := rest } hw
        exact ⟨t, hstep.trans ht, hout.host_eq, nofun, nofun, fun _ _ heq => absurd heq hw,
          fun _ _ _ => ⟨hout.discarded, hout.answered, hout.completes_iff⟩⟩

end Sys2Proof.Machine
